-- ==== Sys2Proof/Word.lean ====
section
/-! DEFINITION. The plain data types of the CORE: the widths of 00_scope.md R3, R8 and R13.
Every value is an unsigned bit vector of a stated width; nothing is signed. -/

namespace Sys2Proof

/-- A 32-bit word: registers, keystream words, S-box entries, block halves (R3). -/
abbrev Word := BitVec 32

/-- One byte: a window offset, a block byte (R3, R51). -/
abbrev Byte := BitVec 8

/-- An 11-bit access descriptor (R81). -/
abbrev Descriptor := BitVec 11

/-- The index space of the S-box ROM: 12 bits, 0..4095 (R56). -/
abbrev SboxIndex := BitVec 12

/-- The S-box contents: a function from 12-bit index to 32-bit word (parameter SBOX, 00_scope.md section 4). -/
abbrev SboxTable := SboxIndex → Word

/-- The keystream array KS: exactly 48 words, by construction (R33, R34). -/
abbrev Keystream := Vector Word 48

end Sys2Proof
end

