-- ==== Sys2Proof/Syntax.lean ====
section
/-! DEFINITION. The instructions of the CORE: one constructor per mnemonic of spec/opcode_table.json, and the two
encoded forms of 30_encoding.md R80 that they are written in. -/

namespace Sys2Proof

/-- What a host bus transaction does: a read, or a write of a data word (field W of R81). -/
inductive Access where
  | read
  | write (w : Word)
  deriving DecidableEq, Repr

/-- One constructor per mnemonic of the opcode table: the command words (R85, R86) first, then the accesses (R84).
A command constructor stands for the WR_CMD step that offers its word (R170, R115, R157, R171). -/
inductive Instr where
  /-- NOP, command word 0 (R170). -/
  | nop
  /-- KEYGEN, command word 1 (R115). -/
  | keygen
  /-- DECRYPT, command word 2 (R157). -/
  | decrypt
  /-- ZEROIZE, command word 3 (R171). -/
  | zeroize
  /-- An illegal command word (R86): RSV not 0, or OPC in 4..15. -/
  | illegalCmd (w : Word)
  /-- WR_CMD, descriptor 0x600, offering command word `w` (R172). -/
  | wrCmd (w : Word)
  /-- RD_CMD, descriptor 0x200 (R174). -/
  | rdCmd
  /-- RD_STATUS, descriptor 0x204 (R175). -/
  | rdStatus
  /-- WR_STATUS, descriptor 0x604 (R176). -/
  | wrStatus (w : Word)
  /-- RD_KEY, descriptor 0x208 (R177). -/
  | rdKey
  /-- WR_KEY, descriptor 0x608 (R178). -/
  | wrKey (w : Word)
  /-- RD_BLK_H, descriptor 0x210 (R179). -/
  | rdBlkH
  /-- RD_BLK_L, descriptor 0x214 (R180). -/
  | rdBlkL
  /-- WR_BLK_H, descriptor 0x610 (R181). -/
  | wrBlkH (w : Word)
  /-- WR_BLK_L, descriptor 0x614 (R182). -/
  | wrBlkL (w : Word)
  /-- RSV_ACCESS: a well-formed access to a reserved offset (R183). -/
  | rsvAccess (a : Access) (off : Byte)
  /-- BAD_ACCESS: an ill-formed access, with its SZ and OFF (R184). -/
  | badAccess (a : Access) (sz : BitVec 2) (off : Byte)
  deriving DecidableEq, Repr

/-- A host bus transaction: an access descriptor and a data word (R81, R185 `HostAccess(d, w)`).
The data word of a read is looked at by nothing (log 13). -/
structure Transaction where
  desc : Descriptor
  data : Word
  deriving DecidableEq, Repr

/-- The two encoded forms of R80, and no others. -/
inductive Form where
  | access (t : Transaction)
  | command (w : Word)
  deriving DecidableEq, Repr

end Sys2Proof
end

