-- ==== Sys2Proof/WellFormed.lean ====
section
/-! DEFINITION. Which instruction terms stand for an encoding: the operands of ILLEGAL_CMD, RSV_ACCESS and BAD_ACCESS
are restricted to the words and descriptors of their rows (R84, R86). Every other term is well-formed. -/

namespace Sys2Proof

/-- A legal command word: RSV = 0 and OPC in 0..3 (R82). -/
def legalCommandWord (w : Word) : Bool :=
  w.extractLsb' 4 28 == 0 && decide (w.extractLsb' 0 4 ≤ 3#4)

/-- The reserved offsets of R53: 0x0C, and the multiples of 4 from 0x18 to 0xFC. -/
def reservedOffset (off : Byte) : Bool :=
  off == 0x0C#8 || (off.extractLsb' 0 2 == 0 && decide (0x18#8 ≤ off))

/-- An ill-formed size or offset (R52): the size is not 4 bytes, or the offset is not a multiple of 4. -/
def illFormedAccess (sz : BitVec 2) (off : Byte) : Bool :=
  sz != 2#2 || off.extractLsb' 0 2 != 0

/-- The check itself, one row per constructor. -/
def Instr.wellFormed : Instr → Bool
  | .nop => true
  | .keygen => true
  | .decrypt => true
  | .zeroize => true
  | .illegalCmd w => !legalCommandWord w
  | .wrCmd _ => true
  | .rdCmd => true
  | .rdStatus => true
  | .wrStatus _ => true
  | .rdKey => true
  | .wrKey _ => true
  | .rdBlkH => true
  | .rdBlkL => true
  | .wrBlkH _ => true
  | .wrBlkL _ => true
  | .rsvAccess _ off => reservedOffset off
  | .badAccess _ sz off => illFormedAccess sz off

/-- `wellFormed` as a decidable proposition. -/
abbrev Instr.WellFormed (i : Instr) : Prop := i.wellFormed = true

end Sys2Proof
end

