-- ==== Sys2Proof/Decode.lean ====
section
/-! DEFINITION. Decoding and encoding (30_encoding.md R80 to R89). Decoding is total and refuses nothing (R88): illegal
command words and ill-formed descriptors are verdicts of their own, ILLEGAL_CMD, RSV_ACCESS and BAD_ACCESS. -/

namespace Sys2Proof

/-! ### Fields of the access descriptor (R81) -/

/-- W, bit 10: a write. -/
def descWrite (d : Descriptor) : Bool := d.getLsbD 10

/-- SZ, bits 9:8. -/
def descSize (d : Descriptor) : BitVec 2 := d.extractLsb' 8 2

/-- OFF, bits 7:0. -/
def descOffset (d : Descriptor) : Byte := d.extractLsb' 0 8

/-- The access a transaction makes: the data word belongs to a write only (R81). -/
def txnAccess (t : Transaction) : Access :=
  if descWrite t.desc then .write t.data else .read

/-! ### Fields of the command word (R82) -/

/-- RSV, bits 31:4. -/
def cmdRsv (w : Word) : BitVec 28 := w.extractLsb' 4 28

/-- OPC, bits 3:0. -/
def cmdOpc (w : Word) : BitVec 4 := w.extractLsb' 0 4

/-! ### Decoding -/

/-- A command word with its meaning (R85, R86). -/
def decodeCommand (w : Word) : Instr :=
  if cmdRsv w ≠ 0 then .illegalCmd w
  else if cmdOpc w = 0 then .nop
  else if cmdOpc w = 1 then .keygen
  else if cmdOpc w = 2 then .decrypt
  else if cmdOpc w = 3 then .zeroize
  else .illegalCmd w

/-- The access a well-formed descriptor selects by W and OFF (R84). -/
def selectAccess (a : Access) (off : Byte) : Instr :=
  match a with
  | .write w =>
    if off = 0x00 then .wrCmd w
    else if off = 0x04 then .wrStatus w
    else if off = 0x08 then .wrKey w
    else if off = 0x10 then .wrBlkH w
    else if off = 0x14 then .wrBlkL w
    else .rsvAccess a off
  | .read =>
    if off = 0x00 then .rdCmd
    else if off = 0x04 then .rdStatus
    else if off = 0x08 then .rdKey
    else if off = 0x10 then .rdBlkH
    else if off = 0x14 then .rdBlkL
    else .rsvAccess a off

/-- A host access with its meaning (R84, R185): ill-formed first, then the register selected. -/
def decodeAccess (t : Transaction) : Instr :=
  let sz := descSize t.desc
  let off := descOffset t.desc
  if sz ≠ 2 ∨ off.extractLsb' 0 2 ≠ 0 then .badAccess (txnAccess t) sz off
  else selectAccess (txnAccess t) off

/-- The decoder: one instruction for each of the two encoded forms (R80, R88). -/
def decode : Form → Instr
  | .access t => decodeAccess t
  | .command w => decodeCommand w

/-! ### Encoding -/

/-- A descriptor from its fields (R81). -/
def mkDescriptor (write : Bool) (sz : BitVec 2) (off : Byte) : Descriptor :=
  BitVec.ofBool write ++ sz ++ off

/-- The transaction of an access of size SZ at offset OFF; a read carries the data word 0 (log 13). -/
def mkTransaction (a : Access) (sz : BitVec 2) (off : Byte) : Transaction :=
  match a with
  | .read => ⟨mkDescriptor false sz off, 0⟩
  | .write w => ⟨mkDescriptor true sz off, w⟩

/-- The encoder: the command word (R85) or the access descriptor and data word (R84) of an instruction. -/
def encode : Instr → Form
  | .nop => .command 0x00000000
  | .keygen => .command 0x00000001
  | .decrypt => .command 0x00000002
  | .zeroize => .command 0x00000003
  | .illegalCmd w => .command w
  | .wrCmd w => .access ⟨0x600, w⟩
  | .rdCmd => .access ⟨0x200, 0⟩
  | .rdStatus => .access ⟨0x204, 0⟩
  | .wrStatus w => .access ⟨0x604, w⟩
  | .rdKey => .access ⟨0x208, 0⟩
  | .wrKey w => .access ⟨0x608, w⟩
  | .rdBlkH => .access ⟨0x210, 0⟩
  | .rdBlkL => .access ⟨0x214, 0⟩
  | .wrBlkH w => .access ⟨0x610, w⟩
  | .wrBlkL w => .access ⟨0x614, w⟩
  | .rsvAccess a off => .access (mkTransaction a 2 off)
  | .badAccess a sz off => .access (mkTransaction a sz off)

/-- The transaction that carries a form to the CORE: a command word travels as the data of a write to CMD (R80, R85). -/
def transactionOf : Form → Transaction
  | .access t => t
  | .command w => ⟨0x600, w⟩

/-! ### The opcode table -/

/-- The mnemonic of an instruction, as spec/opcode_table.json spells it. -/
def Instr.mnemonic : Instr → String
  | .nop => "NOP"
  | .keygen => "KEYGEN"
  | .decrypt => "DECRYPT"
  | .zeroize => "ZEROIZE"
  | .illegalCmd _ => "ILLEGAL_CMD"
  | .wrCmd _ => "WR_CMD"
  | .rdCmd => "RD_CMD"
  | .rdStatus => "RD_STATUS"
  | .wrStatus _ => "WR_STATUS"
  | .rdKey => "RD_KEY"
  | .wrKey _ => "WR_KEY"
  | .rdBlkH => "RD_BLK_H"
  | .rdBlkL => "RD_BLK_L"
  | .wrBlkH _ => "WR_BLK_H"
  | .wrBlkL _ => "WR_BLK_L"
  | .rsvAccess _ _ => "RSV_ACCESS"
  | .badAccess _ _ _ => "BAD_ACCESS"

/-- One row of spec/opcode_table.json: a word w of its format belongs to it when `w AND mask = pattern`. -/
structure TableRow where
  mnemonic : String
  mask : Nat
  pattern : Nat
  deriving DecidableEq, Repr

/-- The rows whose format is the command word. The table's note adds every word with RSV not 0 to ILLEGAL_CMD (R86). -/
def commandRows : List TableRow :=
  [⟨"NOP", 0xFFFFFFFF, 0x00000000⟩, ⟨"KEYGEN", 0xFFFFFFFF, 0x00000001⟩,
   ⟨"DECRYPT", 0xFFFFFFFF, 0x00000002⟩, ⟨"ZEROIZE", 0xFFFFFFFF, 0x00000003⟩,
   ⟨"ILLEGAL_CMD", 0xFFFFFFFC, 0x00000004⟩, ⟨"ILLEGAL_CMD", 0xFFFFFFF8, 0x00000008⟩]

/-- The rows whose format is the access descriptor. -/
def accessRows : List TableRow :=
  [⟨"WR_CMD", 0x7FF, 0x600⟩, ⟨"RD_CMD", 0x7FF, 0x200⟩,
   ⟨"RD_STATUS", 0x7FF, 0x204⟩, ⟨"WR_STATUS", 0x7FF, 0x604⟩,
   ⟨"RD_KEY", 0x7FF, 0x208⟩, ⟨"WR_KEY", 0x7FF, 0x608⟩,
   ⟨"RD_BLK_H", 0x7FF, 0x210⟩, ⟨"RD_BLK_L", 0x7FF, 0x214⟩,
   ⟨"WR_BLK_H", 0x7FF, 0x610⟩, ⟨"WR_BLK_L", 0x7FF, 0x614⟩,
   ⟨"RSV_ACCESS", 0x3FF, 0x20C⟩, ⟨"RSV_ACCESS", 0x3FB, 0x218⟩,
   ⟨"RSV_ACCESS", 0x3E3, 0x220⟩, ⟨"RSV_ACCESS", 0x3C3, 0x240⟩,
   ⟨"RSV_ACCESS", 0x383, 0x280⟩,
   ⟨"BAD_ACCESS", 0x300, 0x000⟩, ⟨"BAD_ACCESS", 0x300, 0x100⟩, ⟨"BAD_ACCESS", 0x300, 0x300⟩,
   ⟨"BAD_ACCESS", 0x303, 0x201⟩, ⟨"BAD_ACCESS", 0x303, 0x202⟩, ⟨"BAD_ACCESS", 0x303, 0x203⟩]

/-- A row matches a word of its format. -/
def TableRow.covers (r : TableRow) (w : Nat) : Bool := w &&& r.mask == r.pattern

/-! ### Words numbered as the opcode table numbers them -/

/-- The encoded form whose bits are `w` when the table gives its row `nbits` bits in whole bytes: a row of 17 to 32 bits is
a command word; any other is an access descriptor in bits 10:0, the data word following from bit 16 on (log 11).
None where bits 15:11 of a descriptor are not 0, which no descriptor has. -/
def formOfTableWord (nbits w : Nat) : Option Form :=
  if 16 < nbits ∧ nbits ≤ 32 then
    if w < 2 ^ 32 then some (.command (BitVec.ofNat 32 w)) else none
  else if w % 2 ^ 16 < 2 ^ 11 ∧ w < 2 ^ 48 then
    some (.access ⟨BitVec.ofNat 11 w, BitVec.ofNat 32 (w / 2 ^ 16)⟩)
  else none

/-- The instruction the decoder reads from a word of the opcode table. -/
def decodeTableWord (nbits w : Nat) : Option Instr :=
  (formOfTableWord nbits w).map decode

end Sys2Proof
end

