-- ==== Sys2Proof/Config.lean ====
section
/-! DEFINITION. The parameters of 00_scope.md section 4 and the free values.
An opaque constant here has no body: no proof can see its value, so every theorem holds for all of them.
The four KS_ parameters are fixed by R7 and are written into Machine/KeySchedule.lean. -/

namespace Sys2Proof.Config

/-- SBOX (R7, R38, D23): the contents of the S-box ROM, one constant for every unit (R214). No property is assumed. -/
opaque sbox : SboxTable

/-- `draw v : N bits` (R11): the k-th free value of a run, at the width asked for.
The counter is the field `draws` of State (log 5). -/
opaque drawBits (width k : Nat) : BitVec width

/-- BASE (R7, R51): the bus address of each unit's 256-byte window; the platform places it. -/
opaque base : Nat → Nat

/-- N_INSTANCES less one: the platform chooses how many units exist, at least one (R7, R214). -/
opaque extraUnits : Nat

/-- T_KEYGEN less one (R7, R238). -/
opaque keygenExtraCycles : Nat

/-- T_DECRYPT less one (R7, R238). -/
opaque decryptExtraCycles : Nat

/-- T_ZEROIZE less one (R7, R238). -/
opaque zeroizeExtraCycles : Nat

/-- The free choice of the k-th accepted operation's latency within its bound (R238: a latency may vary). -/
opaque latencyChoice : Nat → Nat

/-- N_INSTANCES, a positive integer (R7). -/
def nUnits : Nat := extraUnits + 1

/-- T_KEYGEN, a positive number of clock cycles (R7, R238). -/
def tKeygen : Nat := keygenExtraCycles + 1

/-- T_DECRYPT, a positive number of clock cycles (R7, R238). -/
def tDecrypt : Nat := decryptExtraCycles + 1

/-- T_ZEROIZE, a positive number of clock cycles (R7, R238). -/
def tZeroize : Nat := zeroizeExtraCycles + 1

end Sys2Proof.Config
end

