-- ==== Sys2Proof/Machine/Operands.lean ====
section
/-! DEFINITION. How bytes and words are laid out (00_scope.md R10, 20_memory.md R56, R58, R59), and the one operand field of a
register write that is looked at bit by bit (30_encoding.md R87). -/

namespace Sys2Proof.Machine

/-- `BE32(b0, b1, b2, b3)`: the first byte is the most significant (R10). -/
def be32 (b0 b1 b2 b3 : Byte) : Word := b0 ++ b1 ++ b2 ++ b3

/-- `BE32bytes(w)`, the inverse of `be32` (R10). -/
def be32bytes (w : Word) : Vector Byte 4 :=
  #v[w.extractLsb' 24 8, w.extractLsb' 16 8, w.extractLsb' 8 8, w.extractLsb' 0 8]

/-- `BE16(b0, b1)` (R10). -/
def be16 (b0 b1 : Byte) : BitVec 16 := b0 ++ b1

/-- The two halves of an 8-byte block, `b1 = BE32(bytes 0..3)` and `b2 = BE32(bytes 4..7)` (R58, R59, R150). -/
def blockHalves (b : Vector Byte 8) : Word × Word :=
  (be32 b[0] b[1] b[2] b[3], be32 b[4] b[5] b[6] b[7])

/-- The 8 bytes that two register values stand for, BLK_H first (R59, R155). -/
def blockBytes (h : Word × Word) : Vector Byte 8 := be32bytes h.1 ++ be32bytes h.2

/-- CLR_ERR, bit 2 of a word written to STATUS: the only bit looked at (R87). -/
def clrErr (w : Word) : Bool := w.getLsbD 2

/-- The S-box region an index selects, its bits 11:10 (R56). -/
def sboxRegion (i : SboxIndex) : BitVec 2 := i.extractLsb' 10 2

/-- The entry within the region, bits 9:0 of the index (R56). -/
def sboxEntry (i : SboxIndex) : BitVec 10 := i.extractLsb' 0 10

end Sys2Proof.Machine
end

