-- ==== Sys2Proof/Machine/State.lean ====
section
/-! DEFINITION. The state of one CORE unit (10_state.md), the events that move it (43_control.md R185), and the reasons a
step can stop (60_exceptions.md R208; 00_scope.md R5). -/

namespace Sys2Proof.Machine

/-- OP, the engine's pending operation (R32). `none` is the idle state. -/
inductive Op where
  | none
  | keygen
  | decrypt
  | zeroize
  deriving DecidableEq, Repr

/-- The error codes of R201. Codes 6 to 15 are never produced (R30), so they have no constructor. -/
inductive ErrCode where
  /-- Code 0: no error recorded since the last clear. -/
  | none
  /-- Code 1: an ill-formed access (R184). -/
  | badAcc
  /-- Code 2: a well-formed access to a reserved offset (R183). -/
  | badAddr
  /-- Code 3: a write while STATUS.BUSY = 1 (R172, R178, R181, R182). -/
  | busy
  /-- Code 4: an illegal command word (R86). -/
  | badCmd
  /-- Code 5: DECRYPT with STATUS.KSV = 0 (R157). -/
  | noKey
  deriving DecidableEq, Repr

/-- V[0..3], the key schedule's four 16-bit registers (R35). -/
structure KeyRegs where
  v0 : BitVec 16
  v1 : BitVec 16
  v2 : BitVec 16
  v3 : BitVec 16
  deriving DecidableEq, Repr

/-- The sequencing counters of R37, each in its stated range. -/
structure Counters where
  ksRound : Fin 16
  iteration : Fin 15
  bit : Fin 4
  cipherRound : Fin 8
  half : Fin 2
  deriving DecidableEq, Repr

/-- The three kinds of step of R185. -/
inductive Event where
  /-- The host makes one access (R185 (1)). -/
  | access (t : Transaction)
  /-- The engine takes its completion step (R173, R185 (2)). -/
  | complete
  /-- The platform resets the unit (R230, R185 (3)). -/
  | reset
  deriving DecidableEq, Repr

/-- The state of one CORE unit. The first group is the spec's complete list (R20); the second is the model's own. -/
structure State where
  /-- KEY (R22). -/
  key : Word
  /-- BLK_H (R23). -/
  blkH : Word
  /-- BLK_L (R24). -/
  blkL : Word
  /-- STATUS.KSV, bit 1 (R28). -/
  ksv : Bool
  /-- STATUS.ERR, bit 2 (R29). -/
  err : Bool
  /-- STATUS.EOVF, bit 3 (R30). -/
  eovf : Bool
  /-- STATUS.ERRCODE, bits 7:4 (R30). STATUS.BUSY is not stored: it is OP ≠ NONE (R27). -/
  errCode : ErrCode
  /-- OP (R32). -/
  op : Op
  /-- KS[0..47] (R33). -/
  ks : Keystream
  /-- V[0..3] (R35). -/
  v : KeyRegs
  /-- L (R36). -/
  l : Word
  /-- R (R36). -/
  r : Word
  /-- The sequencing counters (R37). -/
  counters : Counters
  /-- MODEL: the events still to come, the next one first (log 1). -/
  schedule : List Event
  /-- MODEL: the read value the last host access returned (R185, log 4). -/
  rdata : Word
  /-- MODEL: how many free values have been drawn (R11, log 5). -/
  draws : Nat
  deriving DecidableEq, Repr

/-- The out-of-scope operations of R5 (a) to (c) and R2. The CORE has no path to them. -/
inductive OutOfScopeOp where
  /-- R5 (a): the orchestrator's five modes. -/
  | bulkDecrypt
  | parallelBulkDecrypt
  | blockingStream
  | suspendingStream
  | parallelStream
  /-- R5 (a): validation of lengths and streams, worker pool, scratch buffers. -/
  | lengthValidation
  | workerPool
  | scratchBuffers
  /-- R5 (b): harness, adapter, file and network I/O, CLI and packaging. -/
  | benchmarkHarness
  | streamAdapter
  | fileOrNetworkIo
  | cliOrPackaging
  /-- R5 (c), R2: not in the hardware. -/
  | encryption
  | keyDerivation
  | integrityCheck
  deriving DecidableEq, Repr

/-- The reasons a step stops with a fault. -/
inductive Fault where
  /-- SBOX_INDEX_RANGE (R137, R208): raised by a DECRYPT completion whose round function forms an S-box index of 4096 or
  more. SAFE: the spec itself gives such a state no meaning, and no run from reset reaches it (R140). -/
  | sboxIndexRange
  deriving DecidableEq, Repr

/-- The reasons a request is refused. -/
inductive Refusal where
  /-- An instruction without a meaning in the model; no arm of exec raises it. SAFE: the run stops. -/
  | notModelled (mnemonic : String)
  /-- An out-of-scope operation (R5: "A model refuses every out-of-scope operation by name"); raised by
  `refuseOutOfScope` alone, by no step and no instruction. SAFE: nothing is claimed of it. -/
  | outOfScope (op : OutOfScopeOp)
  deriving DecidableEq, Repr

/-- The machine right after reset (R41, R230). Registers, STATUS and OP are the spec's values. KS is unspecified in the spec
and is all zeros here (DESIGN CHOICE, log 6); so are V, L, R and the counters (DESIGN CHOICE, log 7). The model's own
fields start empty and at 0 (log 1, 4, 5). -/
def State.reset : State where
  key := 0
  blkH := 0
  blkL := 0
  ksv := false
  err := false
  eovf := false
  errCode := .none
  op := .none
  ks := Vector.replicate 48 0
  v := ⟨0, 0, 0, 0⟩
  l := 0
  r := 0
  counters := ⟨0, 0, 0, 0, 0⟩
  schedule := []
  rdata := 0
  draws := 0

end Sys2Proof.Machine
end

