-- ==== Sys2Proof/Machine/Flags.lean ====
section
/-! DEFINITION. STATUS: its fields, its word, recording an error and clearing the record (10_state.md R26 to R31, R39;
60_exceptions.md R201, R202, R206). -/

namespace Sys2Proof.Machine

/-- The four bits of ERRCODE for each code (R201). -/
def ErrCode.bits : ErrCode → BitVec 4
  | .none => 0
  | .badAcc => 1
  | .badAddr => 2
  | .busy => 3
  | .badCmd => 4
  | .noKey => 5

/-- STATUS.BUSY: 1 exactly when OP is not NONE (R27). -/
def State.busy (s : State) : Bool := s.op != .none

/-- One flag as a word, in bit 0. -/
def flagWord (b : Bool) : Word := if b then 1 else 0

/-- The word RD_STATUS returns (R175); bits 31:8 are 0 (R31). -/
def State.statusWord (s : State) : Word :=
  (s.errCode.bits.setWidth 32 <<< 4) ||| (flagWord s.eovf <<< 3) ||| (flagWord s.err <<< 2)
    ||| (flagWord s.ksv <<< 1) ||| flagWord s.busy

/-- RecordError (R202): the first error since the last clear sets ERR and keeps its code; one that comes while ERR is 1 only
sets EOVF. -/
def State.recordError (s : State) (code : ErrCode) : State :=
  { s with err := true, eovf := s.eovf || s.err, errCode := if s.err then s.errCode else code }

/-- The W1C action: ERR, EOVF and ERRCODE become 0 (R29, R176). -/
def State.clearErrors (s : State) : State :=
  { s with err := false, eovf := false, errCode := .none }

end Sys2Proof.Machine
end

