-- ==== Sys2Proof/Machine/Ops.lean ====
section
/-! DEFINITION. The operations the meanings share: how an access ends, how an error ends it (R200, R202, R203), command
acceptance (R115, R157, R171), free values (R11), and the reset step (R230). -/

namespace Sys2Proof.Machine

/-- The outcome type of every step. -/
abbrev Result := Host.Outcome State Fault Refusal

/-- Go on from a next state; a fault or a refusal ends the sequence. -/
def andThen {α β : Type} (o : Host.Outcome α Fault Refusal) (k : α → Host.Outcome β Fault Refusal) :
    Host.Outcome β Fault Refusal :=
  match o with
  | .next a => k a
  | .fault f => .fault f
  | .refused q => .refused q

/-! ### How an access ends -/

/-- The access completes and returns `v`; a write returns 0x00000000 (R185). -/
def State.returning (s : State) (v : Word) : State := { s with rdata := v }

/-- A write completes (R185). -/
def finishWrite (s : State) : Result := .next (s.returning 0)

/-- A read completes and returns `v` (R185). -/
def finishRead (s : State) (v : Word) : Result := .next (s.returning v)

/-- `raise Error(code)`: the error is recorded, the access ends at once with no other effect and returns 0x00000000
(R200, R202, R203). This is the whole of "taking an exception" on this hardware: nothing is saved and control goes nowhere. -/
def raiseError (s : State) (code : ErrCode) : Result := .next ((s.recordError code).returning 0)

/-- The busy check of R172, R178, R181 and R182: with an operation pending the access is rejected with BUSY. -/
def whenIdle (s : State) (k : Result) : Result :=
  if s.op = .none then k else raiseError s .busy

/-! ### Command acceptance -/

/-- KEYGEN is accepted: OP ← KEYGEN, KSV ← 0 (R115). -/
def State.acceptKeygen (s : State) : State := { s with op := .keygen, ksv := false }

/-- DECRYPT is accepted: OP ← DECRYPT (R157). -/
def State.acceptDecrypt (s : State) : State := { s with op := .decrypt }

/-- ZEROIZE is accepted: OP ← ZEROIZE, KSV ← 0 (R171). -/
def State.acceptZeroize (s : State) : State := { s with op := .zeroize, ksv := false }

/-- DECRYPT needs a keystream: with KSV = 0 it is rejected with NOKEY (R157). -/
def offerDecrypt (s : State) : Result :=
  if s.ksv then finishWrite s.acceptDecrypt else raiseError s .noKey

/-! ### Free values -/

/-- A block register read: while an operation is pending any value is returned (R179, R180, R235), else the register. -/
def readBlock (s : State) (reg : Word) : Result :=
  if s.op = .none then finishRead s reg
  else finishRead { s with draws := s.draws + 1 } (Config.drawBits 32 s.draws)

/-- 48 free words, the k-th free value of the run first (R11, R230). -/
@[irreducible] def freeKeystream (k : Nat) : Keystream := Vector.ofFn fun i => Config.drawBits 32 (k + i.val)

/-- KS takes 48 free values (R230). -/
def State.drawKeystream (s : State) : State :=
  { s with ks := freeKeystream s.draws, draws := s.draws + 48 }

/-- V and the key schedule's counters are unspecified outside a KEYGEN (R35, R37): they take free values. -/
def State.dropKeygenWork (s : State) : State :=
  { s with
    v := ⟨Config.drawBits 16 s.draws, Config.drawBits 16 (s.draws + 1), Config.drawBits 16 (s.draws + 2),
          Config.drawBits 16 (s.draws + 3)⟩
    counters := { s.counters with
      ksRound := Fin.ofNat 16 (Config.drawBits 4 (s.draws + 4)).toNat
      iteration := Fin.ofNat 15 (Config.drawBits 4 (s.draws + 5)).toNat
      bit := Fin.ofNat 4 (Config.drawBits 2 (s.draws + 6)).toNat }
    draws := s.draws + 7 }

/-- L, R and the decryptor's counters are unspecified outside a DECRYPT (R36, R37): they take free values. -/
def State.dropDecryptWork (s : State) : State :=
  { s with
    l := Config.drawBits 32 s.draws
    r := Config.drawBits 32 (s.draws + 1)
    counters := { s.counters with
      cipherRound := Fin.ofNat 8 (Config.drawBits 3 (s.draws + 2)).toNat
      half := Fin.ofNat 2 (Config.drawBits 1 (s.draws + 3)).toNat }
    draws := s.draws + 4 }

/-! ### Reset -/

/-- The registers, STATUS and OP at their reset values (R41). -/
def State.clearRegisters (s : State) : State :=
  { s with key := 0, blkH := 0, blkL := 0, ksv := false, err := false, eovf := false, errCode := .none, op := .none }

/-- The reset step (R230): the registers are cleared, a pending operation is abandoned (R231), and KS, V, L, R and the
counters take free values. The events still to come and the last read value are the environment's and stay (log 1, 4). -/
def State.resetStep (s : State) : State :=
  s.clearRegisters.drawKeystream.dropKeygenWork.dropDecryptWork

/-! ### Out of scope -/

/-- A request for an operation outside the CORE is refused by name (R5). It is no event of the CORE (log 15). -/
def refuseOutOfScope (op : OutOfScopeOp) (_ : State) : Result := .refused (.outOfScope op)

end Sys2Proof.Machine
end

