-- ==== Sys2Proof/Machine/Accesses.lean ====
section
/-! DEFINITION. The register accesses (43_control.md section 2) and the error accesses (section 3). -/

namespace Sys2Proof.Machine

/-- RD_CMD (R174): 0x00000000, at any time. -/
def execRdCmd (s : State) : Result := finishRead s 0

/-- RD_STATUS (R175): the STATUS word, at any time, with no side effect. -/
def execRdStatus (s : State) : Result := finishRead s s.statusWord

/-- WR_STATUS (R176): only bit 2 of the data word acts, at any time. -/
def execWrStatus (w : Word) (s : State) : Result :=
  if clrErr w then finishWrite s.clearErrors else finishWrite s

/-- RD_KEY (R177): 0x00000000 and never the key, at any time. -/
def execRdKey (s : State) : Result := finishRead s 0

/-- WR_KEY (R178): KSV is unchanged. -/
def execWrKey (w : Word) (s : State) : Result := whenIdle s (finishWrite { s with key := w })

/-- RD_BLK_H (R179). -/
def execRdBlkH (s : State) : Result := readBlock s s.blkH

/-- RD_BLK_L (R180). -/
def execRdBlkL (s : State) : Result := readBlock s s.blkL

/-- WR_BLK_H (R181). -/
def execWrBlkH (w : Word) (s : State) : Result := whenIdle s (finishWrite { s with blkH := w })

/-- WR_BLK_L (R182). -/
def execWrBlkL (w : Word) (s : State) : Result := whenIdle s (finishWrite { s with blkL := w })

/-- RSV_ACCESS (R183): BADADDR at any time, read or write. -/
def execRsvAccess (_ : Access) (_ : Byte) (s : State) : Result := raiseError s .badAddr

/-- BAD_ACCESS (R184): BADACC at any time, read or write. -/
def execBadAccess (_ : Access) (_ : BitVec 2) (_ : Byte) (s : State) : Result := raiseError s .badAcc

end Sys2Proof.Machine
end

