-- ==== Sys2Proof/Machine/Commands.lean ====
section
/-! DEFINITION. The command words. Each meaning is the WR_CMD step that offers that word (43_control.md section 1): the BUSY
check, then BADCMD or NOKEY, then acceptance, in the order of 60_exceptions.md R204. -/

namespace Sys2Proof.Machine

/-- NOP (R170): no state changes. -/
def execNop (s : State) : Result := whenIdle s (finishWrite s)

/-- KEYGEN (R115). -/
def execKeygen (s : State) : Result := whenIdle s (finishWrite s.acceptKeygen)

/-- DECRYPT (R157). -/
def execDecrypt (s : State) : Result := whenIdle s (offerDecrypt s)

/-- ZEROIZE (R171). -/
def execZeroize (s : State) : Result := whenIdle s (finishWrite s.acceptZeroize)

/-- An illegal command word (R86): BADCMD, whatever the word. -/
def execIllegalCmd (_ : Word) (s : State) : Result := whenIdle s (raiseError s .badCmd)

/-- WR_CMD, procedure WriteCMD(w) of R172: BUSY, then BADCMD, then the command named by w[3:0]. -/
def execWrCmd (w : Word) (s : State) : Result :=
  if s.op ≠ .none then raiseError s .busy
  else if w.extractLsb' 4 28 ≠ 0 ∨ 3#4 < w.extractLsb' 0 4 then raiseError s .badCmd
  else
    match (w.extractLsb' 0 4).toNat with
    | 0 => finishWrite s
    | 1 => finishWrite s.acceptKeygen
    | 2 => offerDecrypt s
    | _ => finishWrite s.acceptZeroize

end Sys2Proof.Machine
end

