-- ==== Sys2Proof/Machine/Dispatch.lean ====
section
/-! DEFINITION. One arm per constructor of Instr, each one direct call of its meaning. -/

namespace Sys2Proof.Machine

def exec (i : Instr) (s : State) : Host.Outcome State Fault Refusal :=
  match i with
  | .nop => Sys2Proof.Machine.execNop s
  | .keygen => Sys2Proof.Machine.execKeygen s
  | .decrypt => Sys2Proof.Machine.execDecrypt s
  | .zeroize => Sys2Proof.Machine.execZeroize s
  | .illegalCmd w => Sys2Proof.Machine.execIllegalCmd w s
  | .wrCmd w => Sys2Proof.Machine.execWrCmd w s
  | .rdCmd => Sys2Proof.Machine.execRdCmd s
  | .rdStatus => Sys2Proof.Machine.execRdStatus s
  | .wrStatus w => Sys2Proof.Machine.execWrStatus w s
  | .rdKey => Sys2Proof.Machine.execRdKey s
  | .wrKey w => Sys2Proof.Machine.execWrKey w s
  | .rdBlkH => Sys2Proof.Machine.execRdBlkH s
  | .rdBlkL => Sys2Proof.Machine.execRdBlkL s
  | .wrBlkH w => Sys2Proof.Machine.execWrBlkH w s
  | .wrBlkL w => Sys2Proof.Machine.execWrBlkL w s
  | .rsvAccess a off => Sys2Proof.Machine.execRsvAccess a off s
  | .badAccess a sz off => Sys2Proof.Machine.execBadAccess a sz off s

end Sys2Proof.Machine
end

