-- ==== Sys2Proof/Machine/RoundFunction.lean ====
section
/-! DEFINITION. The round-function datapath and the S-box lookup tree (41_round_function.md R130 to R139). Every function takes
the table as an argument (R7); the machine applies it to Config.sbox. `none` is the model fault SBOX_INDEX_RANGE (R137). -/

namespace Sys2Proof.Machine

/-- scramble1 (R131). -/
def scramble1 (x : Word) : Word :=
  ((x >>> 16) &&& 0x3FF) ||| ((x &&& 0b11) <<< 18) ||| ((x >>> 24) <<< 10)

/-- scramble2 (R132). -/
def scramble2 (x : Word) : Word :=
  (x &&& 0x3FF) ||| ((x &&& (0x3FF <<< 8)) <<< 2)

/-- The key-controlled swap mask sc (R133). -/
def swapMask (x k2 : Word) : Word := k2 &&& (scramble1 x ^^^ scramble2 x)

/-- The lookup operand t1 (R134). -/
def operand1 (x k1 k2 : Word) : Word := swapMask x k2 ^^^ scramble2 x ^^^ k1

/-- The lookup operand t2 (R134). -/
def operand2 (x k0 k2 : Word) : Word := swapMask x k2 ^^^ scramble1 x ^^^ k0

/-- SboxRead (R137): an index of 4096 or more has no entry. -/
def sboxRead (sbox : SboxTable) (i : Nat) : Option Word :=
  if i < 4096 then some (sbox (BitVec.ofNat 12 i)) else none

/-- Index of port A, region 3 (R136). -/
def indexA (t1 : Word) : Nat := ((t1 &&& 0x3FF) ||| 0xC00).toNat

/-- Index of port B, region 1 (R136). -/
def indexB (t2 : Word) : Nat := ((t2 &&& 0x3FF) ||| 0x400).toNat

/-- Index of port C, region 2 (R136). -/
def indexC (t1 : Word) : Nat := ((t1 >>> 10) ||| 0x800).toNat

/-- Index of port D, region 0 (R136). -/
def indexD (t2 : Word) : Nat := (t2 >>> 10).toNat

/-- The lookup tree: four independent reads, ORed together (R136, R138). -/
def lookupTree (sbox : SboxTable) (t1 t2 : Word) : Option Word :=
  match sboxRead sbox (indexA t1), sboxRead sbox (indexB t2), sboxRead sbox (indexC t1), sboxRead sbox (indexD t2) with
  | some a, some b, some c, some d => some (a ||| b ||| c ||| d)
  | _, _, _, _ => none

/-- The round function F (R139) of a half x and the three subkey words sk[0], sk[1], sk[2] (R130; conflict C3). -/
def roundF (sbox : SboxTable) (x k0 k1 k2 : Word) : Option Word :=
  lookupTree sbox (operand1 x k1 k2) (operand2 x k0 k2)

end Sys2Proof.Machine
end

