-- ==== Sys2Proof/Machine/BlockDecrypt.lean ====
section
/-! DEFINITION. The 8-round Feistel decryptor (42_block_decrypt.md R150 to R156). `none` is the model fault of R137. -/

namespace Sys2Proof.Machine

/-- The keystream offset of cipher round c, (7 - c) * 6 (R151). -/
def sliceOffset (c : Fin 8) : Nat := (7 - c.val) * 6

/-- Every slice of 6 words lies inside KS (R9, R151). -/
theorem sliceOffset_lt (c : Fin 8) (j : Fin 6) : sliceOffset c + j.val < 48 := by
  unfold sliceOffset
  omega

/-- Word j of the slice of cipher round c (R151). -/
def sliceWord (ks : Keystream) (c : Fin 8) (j : Fin 6) : Word :=
  ks[sliceOffset c + j.val]'(sliceOffset_lt c j)

/-- First half-round of cipher round c: the new L (R152). -/
def firstHalf (sbox : SboxTable) (ks : Keystream) (c : Fin 8) (l r : Word) : Option Word :=
  (roundF sbox r (sliceWord ks c 3) (sliceWord ks c 4) (sliceWord ks c 5)).map fun f => l ^^^ f

/-- Second half-round of cipher round c, from the L just written: the new R (R153). -/
def secondHalf (sbox : SboxTable) (ks : Keystream) (c : Fin 8) (l r : Word) : Option Word :=
  (roundF sbox l (sliceWord ks c 0) (sliceWord ks c 1) (sliceWord ks c 2)).map fun f => r ^^^ f

/-- One cipher round on (L, R): the first half-round, then the second (R152, R153). -/
def cipherRound (sbox : SboxTable) (ks : Keystream) (lr : Word × Word) (c : Fin 8) : Option (Word × Word) :=
  match firstHalf sbox ks c lr.1 lr.2 with
  | none => none
  | some l =>
    match secondHalf sbox ks c l lr.2 with
    | none => none
    | some r => some (l, r)

/-- Cipher rounds in the order given, each from the halves the previous one left (R154). -/
def cipherRounds (sbox : SboxTable) (ks : Keystream) (lr : Word × Word) : List (Fin 8) → Option (Word × Word)
  | [] => some lr
  | c :: cs =>
    match cipherRound sbox ks lr c with
    | none => none
    | some lr' => cipherRounds sbox ks lr' cs

/-- DecryptBlock (R156): (new BLK_H, new BLK_L), the halves swapped (R155). -/
def decryptBlock (sbox : SboxTable) (hi lo : Word) (ks : Keystream) : Option (Word × Word) :=
  (cipherRounds sbox ks (hi, lo) [0, 1, 2, 3, 4, 5, 6, 7]).map fun lr => (lr.2, lr.1)

/-- The source's contract on 8-byte blocks: big-endian in, big-endian out (R150, R155). -/
def decryptBytes (sbox : SboxTable) (input : Vector Byte 8) (ks : Keystream) : Option (Vector Byte 8) :=
  (decryptBlock sbox (blockHalves input).1 (blockHalves input).2 ks).map blockBytes

end Sys2Proof.Machine
end

