-- ==== Sys2Proof/Machine/KeySchedule.lean ====
section
/-! DEFINITION. The key-schedule generator (40_key_schedule.md R100 to R111), with the parameter values R7 fixes:
BIG register byte order, rotation TOWARD_LOWER and CUMULATIVE, INTERLEAVED nibble target. -/

namespace Sys2Proof.Machine

/-- k1 = key XOR 0x0633A998 (R101). UNVERIFIED literal (log 18). -/
def subkey1 (key : Word) : Word := key ^^^ 0x0633A998

/-- k2 = key XOR 0x4E6C32B9 (R101). UNVERIFIED literal (log 18). -/
def subkey2 (key : Word) : Word := key ^^^ 0x4E6C32B9

/-- The 8-byte buffer, `BE32bytes(k1) ++ BE32bytes(k2)` (R102). -/
def keyBuffer (key : Word) : Vector Byte 8 := be32bytes (subkey1 key) ++ be32bytes (subkey2 key)

/-- The register load, `V[i] = BE16(buf[2i], buf[2i+1])` (R103). -/
def loadKeyRegs (key : Word) : KeyRegs :=
  let buf := keyBuffer key
  ⟨be16 buf[0] buf[1], be16 buf[2] buf[3], be16 buf[4] buf[5], be16 buf[6] buf[7]⟩

/-- ROT[0..15], the rotation schedule (R104; conflict C1). -/
def rotSchedule : List Nat := [0, 1, 1, 1, 3, 3, 2, 1, 1, 2, 3, 2, 3, 2, 3, 2]

/-- V[i mod 4]. -/
def KeyRegs.get (v : KeyRegs) (i : Nat) : BitVec 16 :=
  match i % 4 with
  | 0 => v.v0
  | 1 => v.v1
  | 2 => v.v2
  | _ => v.v3

/-- Rotation by d, `V'[i] = V[(i + d) mod 4]` (R105). -/
def KeyRegs.rotate (v : KeyRegs) (d : Nat) : KeyRegs :=
  ⟨v.get (0 + d), v.get (1 + d), v.get (2 + d), v.get (3 + d)⟩

/-- The bit step (R106): a right shift by one, the complement of the bit that left entering at bit 15. -/
def stepReg (v : BitVec 16) : BitVec 16 :=
  (v >>> 1) ||| ((~~~(v.extractLsb' 0 1)).setWidth 16 <<< 15)

/-- Each register is stepped once (R109). -/
def KeyRegs.stepAll (v : KeyRegs) : KeyRegs :=
  ⟨stepReg v.v0, stepReg v.v1, stepReg v.v2, stepReg v.v3⟩

/-- The nibble of an iteration: bit 0 of each register, V[0]'s at position 3, V[3]'s at position 0 (R109). -/
def KeyRegs.nibble (v : KeyRegs) : BitVec 4 :=
  v.v0.extractLsb' 0 1 ++ v.v1.extractLsb' 0 1 ++ v.v2.extractLsb' 0 1 ++ v.v3.extractLsb' 0 1

/-- A KS round at work: the registers and the round's three words, KS[3r], KS[3r+1] and KS[3r+2] (R100). -/
structure RoundWork where
  v : KeyRegs
  w0 : Word
  w1 : Word
  w2 : Word
  deriving DecidableEq, Repr

/-- Accumulation, `KS[w] <- (KS[w] << 4) OR nib` (R110). -/
def accumulate (w : Word) (nib : BitVec 4) : Word := (w <<< 4) ||| nib.setWidth 32

/-- Iteration j of a KS round: the nibble goes into word j mod 3 of the round (R108) and every register is stepped (R109). -/
def ksIteration (st : RoundWork) (j : Nat) : RoundWork :=
  let nib := st.v.nibble
  match j % 3 with
  | 0 => { st with v := st.v.stepAll, w0 := accumulate st.w0 nib }
  | 1 => { st with v := st.v.stepAll, w1 := accumulate st.w1 nib }
  | _ => { st with v := st.v.stepAll, w2 := accumulate st.w2 nib }

/-- One KS round: rotate by d (R105), start the three words at 0 (R107), run iterations 0..14 (R100). -/
def ksRound (v : KeyRegs) (d : Nat) : RoundWork :=
  (List.range 15).foldl ksIteration ⟨v.rotate d, 0, 0, 0⟩

/-- The KS rounds of a rotation schedule, each from the registers the previous one left (R105, CUMULATIVE). -/
def ksRounds (v : KeyRegs) : List Nat → List RoundWork
  | [] => []
  | d :: ds => ksRound v d :: ksRounds (ksRound v d).v ds

/-- The three words of a KS round, in order. -/
def RoundWork.words (st : RoundWork) : List Word := [st.w0, st.w1, st.w2]

/-- The words of all rounds: KS round r owns words 3r, 3r+1 and 3r+2 (R57, R100). -/
def keystreamWords (key : Word) : List Word :=
  (ksRounds (loadKeyRegs key) rotSchedule).flatMap RoundWork.words

/-- KeySchedule (R111). -/
def keySchedule (key : Word) : Keystream := ⟨(keystreamWords key).toArray, rfl⟩

/-- The registers after a whole KeySchedule (R113: internal state, given as a check). -/
def finalKeyRegs (key : Word) : KeyRegs :=
  rotSchedule.foldl (fun v d => (ksRound v d).v) (loadKeyRegs key)

end Sys2Proof.Machine
end

