-- ==== Sys2Proof/Machine/Engine.lean ====
section
/-! DEFINITION. The engine's completion step (43_control.md R173). It raises no error (60_exceptions.md R205). -/

namespace Sys2Proof.Machine

/-- KEYGEN completes: KS ← KeySchedule(KEY), KSV ← 1, OP ← NONE (R115, R173). -/
def State.keygenDone (s : State) : State :=
  { s with ks := keySchedule s.key, ksv := true, op := .none }.dropKeygenWork

/-- DECRYPT completes with the block `b`: BLK_H and BLK_L ← b, OP ← NONE (R157, R173). -/
def State.decryptDone (s : State) (b : Word × Word) : State :=
  { s with blkH := b.1, blkL := b.2, op := .none }.dropDecryptWork

/-- ZEROIZE completes: KEY, BLK_H, BLK_L and all 48 words of KS ← 0, OP ← NONE (R171, R173). -/
def State.zeroizeDone (s : State) : State :=
  { s with key := 0, blkH := 0, blkL := 0, ks := Vector.replicate 48 0, op := .none }

/-- EngineComplete (R173). It is enabled only while OP ≠ NONE; asked for while idle, it changes nothing (log 3). -/
def completeOp (s : State) : Result :=
  match s.op with
  | .none => .next s
  | .keygen => .next s.keygenDone
  | .decrypt =>
    match decryptBlock Config.sbox s.blkH s.blkL s.ks with
    | some b => .next (s.decryptDone b)
    | none => .fault .sboxIndexRange
  | .zeroize => .next s.zeroizeDone

end Sys2Proof.Machine
end

