-- ==== Sys2Proof/Machine/Agents.lean ====
section
/-! DEFINITION. The agents and which of them moves next (43_control.md R185; 20_memory.md R54). Step.lean calls this file. -/

namespace Sys2Proof.Machine

/-- One host access (R185 (1)): the transaction is decoded and its instruction runs, in one indivisible step (R54). -/
def hostAccess (t : Transaction) (s : State) : Result := exec (decode (.access t)) s

/-- One step of the kind an event names (R185). -/
def runEvent (e : Event) (s : State) : Result :=
  match e with
  | .access t => hostAccess t s
  | .complete => completeOp s
  | .reset => .next s.resetStep

/-- The next step: the first event of the schedule. With no event left, a pending operation completes, since the completion
step stays enabled and must be taken (R239, log 2); an idle CORE stays as it is (R216). -/
def takeStep (s : State) : Result :=
  match s.schedule with
  | [] => completeOp s
  | e :: rest => runEvent e { s with schedule := rest }

/-- The host issues `t` as its next access: it becomes the first event of the schedule (log 1). -/
def State.issueNext (s : State) (t : Transaction) : State :=
  { s with schedule := .access t :: s.schedule }

/-- The transaction a word of the opcode table is offered by: a descriptor with its data word, or a command word as the data
of a write to CMD (R80, R85, log 11). A number no row has is cut to 11 bits. -/
def tableTransaction (nbits w : Nat) : Transaction :=
  match formOfTableWord nbits w with
  | some f => transactionOf f
  | none => ⟨BitVec.ofNat 11 w, 0⟩

end Sys2Proof.Machine
end

