-- ==== Sys2Proof/Machine/Step.lean ====
section
/-! DEFINITION. The step function, and how the next instruction is placed where it is fetched. -/

namespace Sys2Proof.Machine

/-- One step of the CORE (R185). -/
def step (s : State) : Host.Outcome State Fault Refusal := takeStep s

/-- The instruction with these table bits is the host's next access: it becomes the first event of the schedule. Nothing else
changes. -/
def State.withFetchWord (s : State) (nbits w : Nat) : State := s.issueNext (tableTransaction nbits w)

end Sys2Proof.Machine
end

