-- ==== Sys2Proof/Machine/HostProgram.lean ====
section
/-! DEFINITION. The host program notation and the pseudo-instructions (30_encoding.md R90, R91): what each line does, and a host
that runs a program against one CORE unit, names, EXPECT and the WAIT loop included (log 17). -/

namespace Sys2Proof.Machine

/-- The named registers of the window (R51, R90). -/
inductive WindowReg where
  | cmd
  | status
  | key
  | blkH
  | blkL
  deriving DecidableEq, Repr

/-- Byte offset of a register (R51). -/
def WindowReg.offset : WindowReg → Byte
  | .cmd => 0x00
  | .status => 0x04
  | .key => 0x08
  | .blkH => 0x10
  | .blkL => 0x14

/-- One line of a host program (R90), or a pseudo-instruction (R91). R90 has `WR @<off>` and `RD @<off>` for well-formed accesses
to reserved offsets; that they take every byte offset is the model's choice (DESIGN CHOICE, log 21). -/
inductive ProgramLine where
  | wr (reg : WindowReg) (value : Word)
  | rd (reg : WindowReg) (name : String)
  | wrAt (off : Byte) (value : Word)
  | rdAt (off : Byte) (name : String)
  | wrb (off : Byte) (value : Word)
  | rdb (off : Byte) (name : String)
  | comment (text : String)
  | expect (name : String) (value : Word)
  | nop
  | keygen
  | decrypt
  | zeroize
  | clrerr
  | loadblk (hi lo : Word)
  | readblk (a b : String)
  | wait (name : String)
  deriving DecidableEq, Repr

/-- One operation of the host, the expansion of a line being a list of them. -/
inductive HostOp where
  /-- One access; the value of a read is bound to a name (R90). -/
  | access (t : Transaction) (bound : Option String)
  /-- `L: RD STATUS -> s`, then repeat L while bit 0 of s is 1 (R91). -/
  | poll (name : String)
  /-- The assertion of EXPECT; no bus operation (R90). -/
  | expect (name : String) (value : Word)
  deriving DecidableEq, Repr

/-- `WR <reg>, <value>` (R90). -/
def writeOp (reg : WindowReg) (value : Word) : HostOp := .access (mkTransaction (.write value) 2 reg.offset) none

/-- `RD <reg> -> <name>` (R90). -/
def readOp (reg : WindowReg) (name : String) : HostOp := .access (mkTransaction .read 2 reg.offset) (some name)

/-- What a line does, in order: the operations of R90 and the expansions of R91. SZ = 2 is a 4-byte access, SZ = 0 a 1-byte
access. `WR @<off>` and `RD @<off>` are 4-byte accesses at whatever offset stands there; that one at an offset that is no
multiple of 4 is a line at all, and so the ill-formed access of R184, is the model's choice (DESIGN CHOICE, log 21). -/
def lineOps : ProgramLine → List HostOp
  | .wr reg value => [writeOp reg value]
  | .rd reg name => [readOp reg name]
  | .wrAt off value => [.access (mkTransaction (.write value) 2 off) none]
  | .rdAt off name => [.access (mkTransaction .read 2 off) (some name)]
  | .wrb off value => [.access (mkTransaction (.write value) 0 off) none]
  | .rdb off name => [.access (mkTransaction .read 0 off) (some name)]
  | .comment _ => []
  | .expect name value => [.expect name value]
  | .nop => [writeOp .cmd 0x00000000]
  | .keygen => [writeOp .cmd 0x00000001]
  | .decrypt => [writeOp .cmd 0x00000002]
  | .zeroize => [writeOp .cmd 0x00000003]
  | .clrerr => [writeOp .status 0x00000004]
  | .loadblk hi lo => [writeOp .blkH hi, writeOp .blkL lo]
  | .readblk a b => [readOp .blkH a, readOp .blkL b]
  | .wait name => [.poll name]

/-- The transaction of an operation: its encoding (R90, R91). A poll makes it again each time it repeats. -/
def HostOp.transaction : HostOp → Option Transaction
  | .access t _ => some t
  | .poll _ => some ⟨0x204, 0⟩
  | .expect _ _ => none

/-- The encoding of a line, each operation's transaction once (R90: "its access descriptor and data word"). -/
def lineTransactions (line : ProgramLine) : List Transaction := (lineOps line).filterMap HostOp.transaction

/-! ### A host at work -/

/-- A host that runs a program against one unit: what it still has to do, the values it has bound (the latest first), and
whether every EXPECT so far held. -/
structure HostRun where
  core : State
  ops : List HostOp
  names : List (String × Word)
  met : Bool
  deriving DecidableEq, Repr

/-- A program at its first line. -/
def HostRun.start (program : List ProgramLine) (s : State) : HostRun := ⟨s, program.flatMap lineOps, [], true⟩

/-- The value last bound to a name. -/
def HostRun.value (h : HostRun) (name : String) : Option Word := h.names.lookup name

/-- An access has left the unit in `s`: what it returned is bound, and the operations to do are `ops`. -/
def HostRun.afterAccess (h : HostRun) (bound : Option String) (ops : List HostOp) (s : State) : HostRun :=
  { h with core := s, ops := ops, names := (bound.toList.map fun name => (name, s.rdata)) ++ h.names }

/-- A poll has left the unit in `s`: while bit 0 of the value it bound is 1, it stands as the next operation again (R91). -/
def HostRun.afterPoll (h : HostRun) (name : String) (rest : List HostOp) (s : State) : HostRun :=
  h.afterAccess (some name) (if s.rdata.getLsbD 0 then .poll name :: rest else rest) s

/-- An EXPECT is checked; a name that nothing has bound meets no value (log 17). -/
def HostRun.afterExpect (h : HostRun) (name : String) (value : Word) (rest : List HostOp) : HostRun :=
  { h with ops := rest, met := h.met && h.value name == some value }

/-- The host's next operation, at most one access; a finished host does nothing. -/
def hostTurn (h : HostRun) : Host.Outcome HostRun Fault Refusal :=
  match h.ops with
  | [] => .next h
  | .access t bound :: rest => andThen (hostAccess t h.core) fun s => .next (h.afterAccess bound rest s)
  | .poll name :: rest => andThen (hostAccess ⟨0x204, 0⟩ h.core) fun s => .next (h.afterPoll name rest s)
  | .expect name value :: rest => .next (h.afterExpect name value rest)

/-- Who moves: the host, the engine, or the platform's reset (R185). -/
inductive Turn where
  | host
  | complete
  | reset
  deriving DecidableEq, Repr

/-- One turn. The engine's and the platform's leave the host where it is. -/
def runTurn (t : Turn) (h : HostRun) : Host.Outcome HostRun Fault Refusal :=
  match t with
  | .host => hostTurn h
  | .complete => andThen (completeOp h.core) fun s => .next { h with core := s }
  | .reset => .next { h with core := h.core.resetStep }

/-- Turns in the order given, up to the first fault or refusal. -/
def runTurns : List Turn → HostRun → Host.Outcome HostRun Fault Refusal
  | [], h => .next h
  | t :: ts, h => andThen (runTurn t h) (runTurns ts)

/-- The turns that bring `n` operations to their end under weak fairness (R239, log 2): a pending completion comes before
each operation of the host, and after the last (R240). -/
def fairTurns : Nat → List Turn
  | 0 => [.complete]
  | n + 1 => .complete :: .host :: fairTurns n

/-- A program run to its end state (R240): first the turns given, in any order, then what is left under fairness. -/
def runProgram (program : List ProgramLine) (turns : List Turn) (s : State) : Host.Outcome HostRun Fault Refusal :=
  andThen (runTurns turns (HostRun.start program s)) fun h => runTurns (fairTurns h.ops.length) h

end Sys2Proof.Machine
end

