-- ==== Sys2Proof/Machine/Platform.lean ====
section
/-! DEFINITION. A platform with several CORE units, each at its own BASE (60_exceptions.md R214; 20_memory.md R51). A platform's
state is the list of its units' states: they share no mutable state, and the same Config.sbox. -/

namespace Sys2Proof.Machine

/-- Unit k takes a step (R185: steps of different units interleave freely). A number with no unit moves nothing. -/
def platformStep (k : Nat) (units : List State) : Host.Outcome (List State) Fault Refusal :=
  match units[k]? with
  | none => .next units
  | some s => andThen (takeStep s) fun t => .next (units.set k t)

/-- The unit and window offset of a bus address, among `n` units whose windows start at `base` (R51).
Where windows overlap the lowest-numbered unit answers (log 10). -/
def routeAmong (base : Nat → Nat) (n addr : Nat) : Option (Nat × Byte) :=
  ((List.range n).find? fun k => decide (base k ≤ addr) && decide (addr < base k + 256)).map
    fun k => (k, BitVec.ofNat 8 (addr - base k))

/-- Routing on this platform (R7: BASE and N_INSTANCES are parameters). -/
def busRoute (addr : Nat) : Option (Nat × Byte) := routeAmong Config.base Config.nUnits addr

/-- A bus transaction of size SZ at an address (R81): it becomes one access of the unit whose window holds the address; outside
every window it reaches no CORE (R51). -/
def busAccess (a : Access) (sz : BitVec 2) (addr : Nat) (units : List State) :
    Host.Outcome (List State) Fault Refusal :=
  match busRoute addr with
  | none => .next units
  | some (k, off) =>
    match units[k]? with
    | none => .next units
    | some s => andThen (hostAccess (mkTransaction a sz off) s) fun t => .next (units.set k t)

end Sys2Proof.Machine
end

