-- ==== Sys2Proof/Machine/Timed.lean ====
section
/-! DEFINITION. One CORE unit against a clock (43_control.md R173 "In a timed model"; 70_reset_and_hazards.md R232, R238). No rule
of the CORE depends on it; every cycle is a short sequence of the untimed steps (log 9). -/

namespace Sys2Proof.Machine

/-- A unit with the cycles left until the pending operation completes, and how many operations were accepted. -/
structure TimedUnit where
  core : State
  left : Nat
  accepted : Nat
  deriving DecidableEq, Repr

/-- What the platform and the host do in one clock cycle. `completeFirst` orders a completion due in this cycle before the
cycle's access; the spec does not order them (log 9). -/
structure ClockCycle where
  reset : Bool
  access : Option Transaction
  completeFirst : Bool
  deriving DecidableEq, Repr

/-- The latency parameter of an operation (R238). -/
def latencyBound : Op → Nat
  | .none => 1
  | .keygen => Config.tKeygen
  | .decrypt => Config.tDecrypt
  | .zeroize => Config.tZeroize

/-- The latency of the k-th accepted operation: at least 1, and at most the parameter (R238: it may vary within a bound). -/
def latency (op : Op) (k : Nat) : Nat := 1 + Config.latencyChoice k % latencyBound op

/-- The countdown after an access: acceptance of a command starts it (R173). -/
def TimedUnit.afterAccess (u : TimedUnit) (s : State) : TimedUnit :=
  if u.core.op = .none ∧ s.op ≠ .none then
    { core := s, left := latency s.op u.accepted, accepted := u.accepted + 1 }
  else { u with core := s }

/-- The cycle's access, if the host makes one. -/
def timedAccess (a : Option Transaction) (u : TimedUnit) : Host.Outcome TimedUnit Fault Refusal :=
  match a with
  | none => .next u
  | some t => andThen (hostAccess t u.core) fun s => .next (u.afterAccess s)

/-- The cycle's completion step, if it is due. -/
def timedCompletion (u : TimedUnit) : Host.Outcome TimedUnit Fault Refusal :=
  if u.core.op ≠ .none ∧ u.left = 0 then andThen (completeOp u.core) fun s => .next { u with core := s }
  else .next u

/-- An access made while reset is asserted (R232): no effect and no error; a read returns any value, a write 0. -/
def State.accessInReset (s : State) (a : Option Transaction) : State :=
  match a.map txnAccess with
  | none => s
  | some .read => { s with draws := s.draws + 1 }.returning (Config.drawBits 32 s.draws)
  | some (.write _) => s.returning 0

/-- One clock cycle. -/
def clockCycle (c : ClockCycle) (u : TimedUnit) : Host.Outcome TimedUnit Fault Refusal :=
  if c.reset then .next { u with core := u.core.resetStep.accessInReset c.access, left := 0 }
  else if c.completeFirst then
    andThen (timedCompletion { u with left := u.left - 1 }) (timedAccess c.access)
  else
    andThen (timedAccess c.access { u with left := u.left - 1 }) timedCompletion

end Sys2Proof.Machine
end

