-- ==== Sys2Proof/Safety.lean ====
section
/-! DEFINITION. What counts as a sound state and a safe run, in the terms the statements use. -/

namespace Sys2Proof.Machine

/-- KS is the keystream of some key (R28: what STATUS.KSV = 1 says of KS). -/
def IsKeystream (ks : Keystream) : Prop := ∃ key : Word, ks = keySchedule key

/-- The state is one the rules describe: KSV tells the truth about KS (R28), no keystream is claimed while one is being made or
erased (R115, R171), DECRYPT is pending only with a keystream (R157), and the error record is consistent (R29, R30, R202). -/
structure State.Sound (s : State) : Prop where
  keystream : s.ksv = true → IsKeystream s.ks
  keygenPending : s.op = .keygen → s.ksv = false
  zeroizePending : s.op = .zeroize → s.ksv = false
  decryptPending : s.op = .decrypt → s.ksv = true
  recorded : s.err = true ↔ s.errCode ≠ .none
  overflow : s.eovf = true → s.err = true

/-- The end state of a host program (R240): no access left to make and no operation pending. -/
def State.AtEnd (s : State) : Prop := s.schedule = [] ∧ s.op = .none

/-- An outcome that is neither a fault nor a refusal. -/
def GoesOn {α : Type} (o : Host.Outcome α Fault Refusal) : Prop := ∃ t, o = .next t

end Sys2Proof.Machine
end

