-- ==== Sys2Proof/Certificates/Slice0/Obligations.lean ====
section
/-! DEFINITION. The statements for the provers. A name says what is stated; the docstring names the rules. -/

open Sys2Proof Sys2Proof.Machine

/-! ### Encoding (30_encoding.md) -/

/-- R80, R84, R85: the decoder reads back every well-formed instruction the encoder writes, every operand at every value. -/
def Obligations.DecodeReadsBackEveryEncoding : Prop :=
  ∀ i : Instr, i.WellFormed → decode (encode i) = i

/-- R88: no two encodings share an instruction: encoding what was decoded gives the word back, for every command word and for
every transaction whose data word is a write's, or 0. -/
def Obligations.EncodeGivesBackEveryDecodedWord : Prop :=
  (∀ w : Word, encode (decode (.command w)) = .command w) ∧
  ∀ t : Transaction, descWrite t.desc = true ∨ t.data = 0 → encode (decode (.access t)) = .access t

/-- R88: every descriptor is in exactly one row of the opcode table, and that row's mnemonic is the decoded instruction's; every
decoded instruction is well-formed. -/
def Obligations.EveryDescriptorIsOneTableRow : Prop :=
  ∀ t : Transaction, (decode (.access t)).WellFormed ∧
    ∃ row ∈ accessRows, row.covers t.desc.toNat = true ∧ row.mnemonic = (decode (.access t)).mnemonic ∧
      ∀ other ∈ accessRows, other.covers t.desc.toNat = true → other = row

/-- R82, R85: the four legal command words, each with its command; every other word is illegal. -/
def Obligations.CommandWordsDecodeToTheirCommands : Prop :=
  ∀ w : Word, decode (.command w) =
    if w = 0 then .nop else if w = 1 then .keygen else if w = 2 then .decrypt else if w = 3 then .zeroize
    else .illegalCmd w

/-- R52, R53, R81: by size and offset, which transactions are ill-formed and which are reserved. -/
def Obligations.BadAndReservedDescriptorsAreTold : Prop :=
  ∀ t : Transaction,
    ((t.desc.toNat / 256 % 4 ≠ 2 ∨ t.desc.toNat % 4 ≠ 0) ↔
      ∃ a sz off, decode (.access t) = .badAccess a sz off) ∧
    ((t.desc.toNat / 256 % 4 = 2 ∧ t.desc.toNat % 4 = 0 ∧
        (t.desc.toNat % 256 = 0x0C ∨ 0x18 ≤ t.desc.toNat % 256)) ↔
      ∃ a off, decode (.access t) = .rsvAccess a off)

/-- R84, R85: one word of each family, written out from the tables of the spec, decodes to its instruction. -/
def Obligations.WordsFromTheTablesDecode : Prop :=
  decode (.command 0x00000001) = .keygen ∧
  decode (.command 0x80000002) = .illegalCmd 0x80000002 ∧
  decode (.access ⟨0b11000001000, 0x4C1EBEDD⟩) = .wrKey 0x4C1EBEDD ∧
  decode (.access ⟨0b01000010100, 0⟩) = .rdBlkL ∧
  decode (.access ⟨0b11000001100, 7⟩) = .rsvAccess (.write 7) 0x0C ∧
  decode (.access ⟨0b10000001101, 7⟩) = .badAccess (.write 7) 0 0x0D

/-! ### The step and the instructions it runs -/

/-- R54, R185: when the next event is a host access, the step is exec of the instruction its transaction decodes to, the event
taken off the schedule. -/
def Obligations.StepRunsTheDecodedAccess : Prop :=
  ∀ (s : State) (t : Transaction) (rest : List Event), s.schedule = .access t :: rest →
    step s = exec (decode (.access t)) { s with schedule := rest }

/-- R80, R82, R172: a write to CMD runs the command its data word encodes; that the command instructions stand for whole WR_CMD
steps is the model's choice (log 12). The second clause is the model's choice too and no rule of the spec, since the CORE
fetches nothing (R67): a table word, whose form its number of bits decides (log 11), is placed at the head of the model's
schedule (log 1), and the next step runs the instruction the decoder reads from it. -/
def Obligations.CommandPortRunsTheOfferedCommand : Prop :=
  (∀ (w : Word) (s : State), exec (.wrCmd w) s = exec (decode (.command w)) s) ∧
  ∀ (s : State) (nbits w : Nat) (i : Instr), decodeTableWord nbits w = some i →
    step (s.withFetchWord nbits w) = exec i s

/-- R200: whatever a host access is, and in whatever state, it completes. -/
def Obligations.EveryHostAccessCompletes : Prop :=
  ∀ (i : Instr) (s : State), ∃ t, exec i s = .next t

/-- R170. -/
def Obligations.NopChangesNothing : Prop :=
  encode .nop = .command 0x00000000 ∧
  ∀ s : State, (s.op = .none → exec .nop s = .next { s with rdata := 0 }) ∧
    (s.op ≠ .none → exec .nop s = .next { s.recordError .busy with rdata := 0 })

/-- R115, acceptance: KEYGEN on an idle CORE starts the key schedule and drops the old keystream. -/
def Obligations.KeygenIsAcceptedWhenIdle : Prop :=
  ∀ s : State, s.op = .none → exec .keygen s = .next { s with op := .keygen, ksv := false, rdata := 0 }

/-- R157, acceptance: DECRYPT on an idle CORE starts with a keystream and is rejected with NOKEY without one. -/
def Obligations.DecryptIsAcceptedWithAKeystream : Prop :=
  ∀ s : State, s.op = .none →
    (s.ksv = true → exec .decrypt s = .next { s with op := .decrypt, rdata := 0 }) ∧
    (s.ksv = false → exec .decrypt s = .next { s.recordError .noKey with rdata := 0 })

/-- R171, acceptance: ZEROIZE on an idle CORE starts with or without a keystream. -/
def Obligations.ZeroizeIsAcceptedWhenIdle : Prop :=
  ∀ s : State, s.op = .none → exec .zeroize s = .next { s with op := .zeroize, ksv := false, rdata := 0 }

/-- R86: every illegal word offered to an idle CORE raises BADCMD and does nothing else. -/
def Obligations.IllegalWordsRaiseBadCmd : Prop :=
  ∀ (w : Word) (s : State), s.op = .none →
    exec (.illegalCmd w) s = .next { s.recordError .badCmd with rdata := 0 } ∧
    ((w.toNat / 16 ≠ 0 ∨ 4 ≤ w.toNat % 16) →
      decode (.command w) = .illegalCmd w ∧
      exec (.wrCmd w) s = .next { s.recordError .badCmd with rdata := 0 })

/-- R172: procedure WriteCMD, every word in every state. -/
def Obligations.CommandPortFollowsWriteCmd : Prop :=
  encode (.wrCmd 0) = .access ⟨0x600, 0⟩ ∧
  ∀ (w : Word) (s : State), exec (.wrCmd w) s = .next { (
    if s.op ≠ .none then s.recordError .busy
    else if 4 ≤ w.toNat then s.recordError .badCmd
    else if w = 1 then { s with op := .keygen, ksv := false }
    else if w = 2 then (if s.ksv then { s with op := .decrypt } else s.recordError .noKey)
    else if w = 3 then { s with op := .zeroize, ksv := false }
    else s) with rdata := 0 }

/-- R174, R177: CMD and KEY read as 0 at any time, with no side effect. -/
def Obligations.CommandAndKeyReadAsZero : Prop :=
  encode .rdCmd = .access ⟨0x200, 0⟩ ∧ encode .rdKey = .access ⟨0x208, 0⟩ ∧
  ∀ s : State, exec .rdCmd s = .next { s with rdata := 0 } ∧ exec .rdKey s = .next { s with rdata := 0 }

/-- R175, R27, R31, R201: the STATUS word, field by field, at any time, with no side effect. -/
def Obligations.StatusReadsItsFields : Prop :=
  encode .rdStatus = .access ⟨0x204, 0⟩ ∧
  ∀ s : State, ∃ v : Word, exec .rdStatus s = .next { s with rdata := v } ∧
    v.toNat =
      16 * (match s.errCode with
        | .none => 0 | .badAcc => 1 | .badAddr => 2 | .busy => 3 | .badCmd => 4 | .noKey => 5)
      + 8 * s.eovf.toNat + 4 * s.err.toNat + 2 * s.ksv.toNat + (if s.op = .none then 0 else 1)

/-- R176: only bit 2 of the word acts, at any time, and it clears the error fields alone. -/
def Obligations.StatusWriteClearsTheErrorRecord : Prop :=
  (∀ w : Word, encode (.wrStatus w) = .access ⟨0x604, w⟩) ∧
  ∀ (w : Word) (s : State),
    (w.toNat / 4 % 2 = 1 →
      exec (.wrStatus w) s = .next { s with err := false, eovf := false, errCode := .none, rdata := 0 }) ∧
    (w.toNat / 4 % 2 = 0 → exec (.wrStatus w) s = .next { s with rdata := 0 })

/-- R178: the key register takes the word, KSV and the keystream stay; while busy the write is rejected. -/
def Obligations.KeyWriteStoresTheWord : Prop :=
  (∀ w : Word, encode (.wrKey w) = .access ⟨0x608, w⟩) ∧
  ∀ (w : Word) (s : State), (s.op = .none → exec (.wrKey w) s = .next { s with key := w, rdata := 0 }) ∧
    (s.op ≠ .none → exec (.wrKey w) s = .next { s.recordError .busy with rdata := 0 })

/-- R181, R182: each block register takes its word; while busy the write is rejected. -/
def Obligations.BlockWritesStoreTheWord : Prop :=
  (∀ w : Word, encode (.wrBlkH w) = .access ⟨0x610, w⟩ ∧ encode (.wrBlkL w) = .access ⟨0x614, w⟩) ∧
  ∀ (w : Word) (s : State),
    (s.op = .none → exec (.wrBlkH w) s = .next { s with blkH := w, rdata := 0 } ∧
      exec (.wrBlkL w) s = .next { s with blkL := w, rdata := 0 }) ∧
    (s.op ≠ .none → exec (.wrBlkH w) s = .next { s.recordError .busy with rdata := 0 } ∧
      exec (.wrBlkL w) s = .next { s.recordError .busy with rdata := 0 })

/-- R179, R180, R235: an idle CORE returns the block registers; a busy one returns some value and raises nothing. The count of
free values drawn is the model's own field (log 5). -/
def Obligations.BlockReadsReturnTheBlockWhenIdle : Prop :=
  ∀ s : State,
    (s.op = .none → exec .rdBlkH s = .next { s with rdata := s.blkH } ∧
      exec .rdBlkL s = .next { s with rdata := s.blkL }) ∧
    (s.op ≠ .none →
      (∃ v : Word, exec .rdBlkH s = .next { s with rdata := v, draws := s.draws + 1 }) ∧
      ∃ v : Word, exec .rdBlkL s = .next { s with rdata := v, draws := s.draws + 1 })

/-- R183: a well-formed access to a reserved offset, read or write, idle or busy. -/
def Obligations.ReservedOffsetsRaiseBadAddr : Prop :=
  (∀ (a : Access) (off : Byte) (s : State),
    exec (.rsvAccess a off) s = .next { s.recordError .badAddr with rdata := 0 }) ∧
  ∀ (t : Transaction) (s : State),
    t.desc.toNat / 256 % 4 = 2 → t.desc.toNat % 4 = 0 → (t.desc.toNat % 256 = 0x0C ∨ 0x18 ≤ t.desc.toNat % 256) →
    hostAccess t s = .next { s.recordError .badAddr with rdata := 0 }

/-- R184: an ill-formed access, read or write, idle or busy, at any offset. -/
def Obligations.IllFormedAccessesRaiseBadAcc : Prop :=
  (∀ (a : Access) (sz : BitVec 2) (off : Byte) (s : State),
    exec (.badAccess a sz off) s = .next { s.recordError .badAcc with rdata := 0 }) ∧
  ∀ (t : Transaction) (s : State), (t.desc.toNat / 256 % 4 ≠ 2 ∨ t.desc.toNat % 4 ≠ 0) →
    hostAccess t s = .next { s.recordError .badAcc with rdata := 0 }

/-! ### Errors (60_exceptions.md) -/

/-- R202: the first error keeps its code, a later one only sets EOVF. -/
def Obligations.FirstErrorKeepsItsCode : Prop :=
  ∀ (s : State) (code : ErrCode),
    (s.err = false → s.recordError code = { s with err := true, errCode := code }) ∧
    (s.err = true → s.recordError code = { s with eovf := true })

/-- R203: if an access other than a write to STATUS changes the error record, the state is as before but for one recorded error
and the 0 it returns. -/
def Obligations.ErrorsHaveNoOtherEffect : Prop :=
  ∀ (i : Instr) (s t : State), exec i s = .next t → (∀ w, i ≠ .wrStatus w) →
    (t.err, t.eovf, t.errCode) ≠ (s.err, s.eovf, s.errCode) →
    ∃ code : ErrCode, code ≠ .none ∧ t = { s.recordError code with rdata := 0 }

/-- R204: the priority BADACC, BADADDR, BUSY, BADCMD, NOKEY, over every transaction and state. -/
def Obligations.OneErrorIsRaisedInPriorityOrder : Prop :=
  ∀ (t : Transaction) (s : State),
    let raised := fun code : ErrCode => hostAccess t s = .next { s.recordError code with rdata := 0 }
    if t.desc.toNat / 256 % 4 ≠ 2 ∨ t.desc.toNat % 4 ≠ 0 then raised .badAcc
    else if t.desc.toNat % 256 = 0x0C ∨ 0x18 ≤ t.desc.toNat % 256 then raised .badAddr
    else if s.op ≠ .none ∧ t.desc ∈ [0x600#11, 0x608#11, 0x610#11, 0x614#11] then raised .busy
    else if t.desc = 0x600#11 ∧ 4 ≤ t.data.toNat then raised .badCmd
    else if t.desc = 0x600#11 ∧ t.data = 2 ∧ s.ksv = false then raised .noKey
    else ∃ u, hostAccess t s = .next u ∧
      (t.desc ≠ 0x604#11 → u.err = s.err ∧ u.eovf = s.eovf ∧ u.errCode = s.errCode)

/-- R234: while an operation is pending, every write to CMD, KEY, BLK_H and BLK_L is rejected with BUSY and has no effect. -/
def Obligations.PendingOperationRejectsWrites : Prop :=
  ∀ (s : State) (w : Word), s.op ≠ .none →
    ∀ i ∈ [Instr.nop, .keygen, .decrypt, .zeroize, .illegalCmd w, .wrCmd w, .wrKey w, .wrBlkH w, .wrBlkL w],
      exec i s = .next { s.recordError .busy with rdata := 0 }

/-! ### Frames of the host's accesses -/

/-- R28, R33, R35 to R37, R39: what no host access writes, and what only the named ones write. That V, L, R and the counters
keep their values meanwhile is the model's choice (log 20), as it is in every equation of a whole next state here. -/
def Obligations.HostAccessesWriteOnlyTheirRegisters : Prop :=
  ∀ (i : Instr) (s t : State), exec i s = .next t →
    (t.ks = s.ks ∧ t.v = s.v ∧ t.l = s.l ∧ t.r = s.r ∧ t.counters = s.counters ∧ t.schedule = s.schedule) ∧
    (t.key ≠ s.key → i = .wrKey t.key) ∧
    (t.blkH ≠ s.blkH → i = .wrBlkH t.blkH) ∧
    (t.blkL ≠ s.blkL → i = .wrBlkL t.blkL) ∧
    (t.op ≠ s.op → s.op = .none ∧ i ∈ [Instr.keygen, .decrypt, .zeroize, .wrCmd 1, .wrCmd 2, .wrCmd 3]) ∧
    (t.ksv ≠ s.ksv → t.ksv = false ∧ i ∈ [Instr.keygen, .zeroize, .wrCmd 1, .wrCmd 3]) ∧
    (t.draws ≠ s.draws → s.op ≠ .none ∧ i ∈ [Instr.rdBlkH, .rdBlkL])

/-- R66, R173: from acceptance to completion no host access changes the operation or anything it works on. -/
def Obligations.PendingOperationKeepsItsOperands : Prop :=
  ∀ (i : Instr) (s t : State), s.op ≠ .none → exec i s = .next t →
    t.op = s.op ∧ t.key = s.key ∧ t.blkH = s.blkH ∧ t.blkL = s.blkL ∧ t.ks = s.ks ∧ t.ksv = s.ksv

/-- R22, R33, R177, R211: no host access reads KEY or KS: with another key and another keystream it returns the same value and
leaves the same state, but for the key and the keystream themselves. For a block read while busy that is the model's choice
(log 5): R179, R180 and R235 let its value be anything, working data included, and here it is a free value that depends on the
count of draws alone. -/
def Obligations.NoAccessRevealsKeyOrKeystream : Prop :=
  ∀ (i : Instr) (s t : State) (key : Word) (ks : Keystream), exec i s = .next t →
    ∃ key' : Word, exec i { s with key := key, ks := ks } = .next { t with key := key', ks := ks }

/-! ### The engine's completion step and reset -/

/-- R115, R173: KEYGEN completes. V and the key schedule's counters are left free (R35, R37); that L and R keep their values is
the model's choice (log 20). -/
def Obligations.KeygenCompletionInstallsTheKeystream : Prop :=
  ∀ (s : State) (rest : List Event), s.schedule = .complete :: rest → s.op = .keygen →
    ∃ t, step s = .next t ∧ t.ks = keySchedule s.key ∧ t.ksv = true ∧ t.op = .none ∧
      t.key = s.key ∧ t.blkH = s.blkH ∧ t.blkL = s.blkL ∧ t.l = s.l ∧ t.r = s.r ∧
      t.err = s.err ∧ t.eovf = s.eovf ∧ t.errCode = s.errCode ∧ t.rdata = s.rdata ∧ t.schedule = rest

/-- R157, R173, R137: DECRYPT completes with the block DecryptBlock gives; where the datapath would read outside the table, it
is the model fault. L, R and the decryptor's counters are left free (R36, R37); that V keeps its value is the model's choice
(log 20). -/
def Obligations.DecryptCompletionWritesThePlaintext : Prop :=
  ∀ (s : State) (rest : List Event), s.schedule = .complete :: rest → s.op = .decrypt →
    (∀ b, decryptBlock Config.sbox s.blkH s.blkL s.ks = some b →
      ∃ t, step s = .next t ∧ t.blkH = b.1 ∧ t.blkL = b.2 ∧ t.op = .none ∧
        t.ks = s.ks ∧ t.ksv = s.ksv ∧ t.key = s.key ∧ t.v = s.v ∧
        t.err = s.err ∧ t.eovf = s.eovf ∧ t.errCode = s.errCode ∧ t.rdata = s.rdata ∧ t.schedule = rest) ∧
    (decryptBlock Config.sbox s.blkH s.blkL s.ks = none → step s = .fault .sboxIndexRange)

/-- R171, R173: ZEROIZE completes: the key, the block and all 48 words of KS are 0, and nothing else changes but OP (V, L, R and
the counters by the model's choice, log 20). -/
def Obligations.ZeroizeCompletionErasesTheSecrets : Prop :=
  ∀ (s : State) (rest : List Event), s.schedule = .complete :: rest → s.op = .zeroize →
    ∃ ks : Keystream, (∀ j : Fin 48, ks[j] = 0) ∧
      step s = .next { s with key := 0, blkH := 0, blkL := 0, ks := ks, op := .none, schedule := rest }

/-- R205, R206: no completion step changes the error record, and none goes on with an operation still pending. -/
def Obligations.CompletionLeavesTheErrorRecord : Prop :=
  ∀ (s t : State) (rest : List Event), s.schedule = .complete :: rest → step s = .next t →
    t.op = .none ∧ t.err = s.err ∧ t.eovf = s.eovf ∧ t.errCode = s.errCode

/-- R41, R230, R231, R206: a reset step clears the registers, the record and any pending operation, in any state. What it leaves
is the same whatever the key, the block, the pending operation and KS were: for the key, the block and the operation as R230 and
R231 say; for KS, V, L, R and the counters, which R41 and R230 leave unspecified, by the model's choice (log 5), since the values
drawn depend on the count of draws alone. -/
def Obligations.ResetStepClearsTheUnit : Prop :=
  ∀ (s : State) (rest : List Event), s.schedule = .reset :: rest →
    (∃ t, step s = .next t ∧ t.key = 0 ∧ t.blkH = 0 ∧ t.blkL = 0 ∧ t.ksv = false ∧ t.err = false ∧
      t.eovf = false ∧ t.errCode = .none ∧ t.op = .none ∧ t.statusWord = 0 ∧
      t.rdata = s.rdata ∧ t.schedule = rest) ∧
    ∀ (key hi lo : Word) (ks : Keystream) (op : Op),
      step { s with key := key, blkH := hi, blkL := lo, ks := ks, op := op } = step s

/-- R41: the state after reset has the values the spec states. -/
def Obligations.ResetStateHasTheStatedValues : Prop :=
  State.reset.key = 0 ∧ State.reset.blkH = 0 ∧ State.reset.blkL = 0 ∧ State.reset.statusWord = 0 ∧
  State.reset.ksv = false ∧ State.reset.err = false ∧ State.reset.eovf = false ∧
  State.reset.errCode = .none ∧ State.reset.op = .none

/-- R28, R39: STATUS.KSV rises in one way only: a KEYGEN completes, and KS is then the keystream of KEY. -/
def Obligations.KsvRisesOnlyWhenKeygenCompletes : Prop :=
  ∀ s t : State, step s = .next t → s.ksv = false → t.ksv = true →
    s.op = .keygen ∧ (s.schedule = [] ∨ s.schedule.head? = some .complete) ∧ t.ks = keySchedule s.key ∧ t.key = s.key

/-- R33: KS is written by the completion of KEYGEN or of ZEROIZE, or lost to a reset, and by nothing else. -/
def Obligations.KeystreamIsWrittenByTheEngineOnly : Prop :=
  ∀ s t : State, step s = .next t → t.ks ≠ s.ks →
    ((s.op = .keygen ∨ s.op = .zeroize) ∧ (s.schedule = [] ∨ s.schedule.head? = some .complete)) ∨
    s.schedule.head? = some .reset

/-! ### The key schedule (40_key_schedule.md) -/

/-- R101, R102, R103: the registers are the halves of the two subkeys. -/
def Obligations.KeyRegistersAreTheSubkeyHalves : Prop :=
  ∀ key : Word, loadKeyRegs key =
    ⟨(key ^^^ 0x0633A998).extractLsb' 16 16, (key ^^^ 0x0633A998).extractLsb' 0 16,
     (key ^^^ 0x4E6C32B9).extractLsb' 16 16, (key ^^^ 0x4E6C32B9).extractLsb' 0 16⟩

/-- R113, first half: the bit step is a bijection, 16 of them complement, and every orbit has exactly 32 elements. -/
def Obligations.BitStepHasPeriodThirtyTwo : Prop :=
  Function.Bijective stepReg ∧
  ∀ v : BitVec 16, stepReg^[16] v = ~~~v ∧ stepReg^[32] v = v ∧ Function.minimalPeriod stepReg v = 32

/-- R113, second half: at the end of KeySchedule, V[i] = NOT_16(V_initial[(i + 2) mod 4]). -/
def Obligations.KeyRegistersEndComplementedAndTurned : Prop :=
  ∀ key : Word,
    finalKeyRegs key =
      ⟨~~~(loadKeyRegs key).v2, ~~~(loadKeyRegs key).v3, ~~~(loadKeyRegs key).v0, ~~~(loadKeyRegs key).v1⟩

/-- R111: the closed form. nib(r, j) is the nibble of the registers that start KS round r, rotated by ROT[r] and stepped
j times; KS[3r+t] is the sum over m of nib(r, t + 3m) * 2^(4*(4-m)). -/
def Obligations.KeystreamWordsHaveTheClosedForm : Prop :=
  ∀ (key : Word) (r : Fin 16) (t : Fin 3),
    let start := (rotSchedule.take r.val).foldl (fun v d => KeyRegs.stepAll^[15] (v.rotate d)) (loadKeyRegs key)
    let nib := fun j : Nat => (KeyRegs.stepAll^[j] (start.rotate (rotSchedule.getD r.val 0))).nibble.toNat
    ((keySchedule key).toList.getD (3 * r.val + t.val) 0).toNat =
      ((List.range 5).map fun m => nib (t.val + 3 * m) * 2 ^ (4 * (4 - m))).sum

/-- R112: every keystream word is below 2^20, so while KSV = 1 every word of KS is. -/
def Obligations.KeystreamWordsAreTwentyBits : Prop :=
  (∀ (key : Word) (j : Fin 48), (keySchedule key)[j].toNat < 2 ^ 20) ∧
  ∀ s : State, s.Sound → s.ksv = true → ∀ j : Fin 48, s.ks[j].toNat < 2 ^ 20

/-- A consequence of R101, R103, R105 and R109, no sentence of the spec: V[0] and V[2], and V[1] and V[3], are loaded with the
same key half and stay two slots apart, so between two keys each nibble differs in bit 3 as in bit 1 and in bit 2 as in bit 0,
and not every word below 2^20 is a keystream word. To be compared with R112's last sentence, which it does not rest on
(NOTES.md, findings). -/
def Obligations.KeystreamDifferencesRepeatInEachNibble : Prop :=
  (∀ (key key' : Word) (j : Fin 48),
    let d := (keySchedule key)[j] ^^^ (keySchedule key')[j]
    (d >>> 2) &&& 0x33333333 = d &&& 0x33333333) ∧
  ∃ p : BitVec 20, ∀ (key : Word) (j : Fin 48), (keySchedule key)[j] ≠ p.setWidth 32

/-! ### The round function (41_round_function.md) -/

/-- R131, R132: the bit maps of the two scrambles; bits 31:20 are 0. -/
def Obligations.ScramblesAreTheirBitMaps : Prop :=
  ∀ x : Word,
    scramble1 x = 0#12 ++ (x.extractLsb' 0 2 ++ (x.extractLsb' 24 8 ++ x.extractLsb' 16 10)) ∧
    scramble2 x = 0#12 ++ (x.extractLsb' 8 10 ++ x.extractLsb' 0 10)

/-- R135: bit by bit, sk[2] selects whether the scrambles swap, and sk[1], sk[0] whiten. -/
def Obligations.OperandsAreAPerBitMultiplexer : Prop :=
  ∀ (x k0 k1 k2 : Word) (b : Fin 32),
    (k2.getLsbD b = true →
      (operand1 x k1 k2).getLsbD b = ((scramble1 x).getLsbD b ^^ k1.getLsbD b) ∧
      (operand2 x k0 k2).getLsbD b = ((scramble2 x).getLsbD b ^^ k0.getLsbD b)) ∧
    (k2.getLsbD b = false →
      (operand1 x k1 k2).getLsbD b = ((scramble2 x).getLsbD b ^^ k1.getLsbD b) ∧
      (operand2 x k0 k2).getLsbD b = ((scramble1 x).getLsbD b ^^ k0.getLsbD b))

/-- R136, R138, R140, R142 (3): with sk[0] and sk[1] below 2^20 each port reads its own region, at the 10-bit field of its
operand, and F is the OR of the four entries. -/
def Obligations.RoundFunctionReadsOneEntryPerRegion : Prop :=
  ∀ (sbox : SboxTable) (x k0 k1 k2 : Word), k0.toNat < 2 ^ 20 → k1.toNat < 2 ^ 20 →
    roundF sbox x k0 k1 k2 =
      some (sbox (3#2 ++ (operand1 x k1 k2).extractLsb' 0 10) ||| sbox (1#2 ++ (operand2 x k0 k2).extractLsb' 0 10)
        ||| sbox (2#2 ++ (operand1 x k1 k2).extractLsb' 10 10) ||| sbox (0#2 ++ (operand2 x k0 k2).extractLsb' 10 10))

/-- R137: exactly when F is the model fault: a subkey word so wide that port C or port D forms an index of 4096 or more. -/
def Obligations.RoundFunctionFaultsOnWideSubkeysOnly : Prop :=
  ∀ (sbox : SboxTable) (x k0 k1 k2 : Word),
    roundF sbox x k0 k1 k2 = none ↔ (2 ^ 22 ≤ k0.toNat ∨ 2 ^ 22 ≤ k1.toNat)

/-! ### The block decryptor (42_block_decrypt.md) -/

/-- R150 to R155: DecryptBlock answers p exactly when p is the swapped end of the chain of the 16 half-rounds. -/
def Obligations.DecryptBlockIsTheHalfRoundChain : Prop :=
  ∀ (sbox : SboxTable) (hi lo : Word) (ks : Keystream) (p : Word × Word),
    let word := fun j : Nat => ks.toList.getD j 0
    decryptBlock sbox hi lo ks = some p ↔
      ∃ l r : Nat → Word, l 0 = hi ∧ r 0 = lo ∧
        (∀ c < 8, ∃ f g : Word,
          roundF sbox (r c) (word ((7 - c) * 6 + 3)) (word ((7 - c) * 6 + 4)) (word ((7 - c) * 6 + 5)) = some f ∧
          l (c + 1) = l c ^^^ f ∧
          roundF sbox (l (c + 1)) (word ((7 - c) * 6)) (word ((7 - c) * 6 + 1)) (word ((7 - c) * 6 + 2)) = some g ∧
          r (c + 1) = r c ^^^ g) ∧
        p = (r 8, l 8)

/-- R157, corner case: under the zero table DECRYPT only swaps the halves. -/
def Obligations.ZeroTableOnlySwapsTheHalves : Prop :=
  ∀ (hi lo key : Word), decryptBlock (fun _ => 0) hi lo (keySchedule key) = some (lo, hi)

/-- R152 to R156, R159: under every key and table the decryptor permutes the 64-bit blocks: every block has a plaintext, and
every plaintext comes from exactly one block. -/
def Obligations.DecryptionPermutesTheBlocks : Prop :=
  ∀ (sbox : SboxTable) (key : Word), ∃ f : Equiv.Perm (Word × Word),
    ∀ b : Word × Word, decryptBlock sbox b.1 b.2 (keySchedule key) = some (f b)

/-- R10, R58, R59, R155: the byte form of DecryptBlock and its register form agree through BE32, which loses nothing. -/
def Obligations.ByteBlocksAgreeWithRegisterBlocks : Prop :=
  (∀ h : Word × Word, blockHalves (blockBytes h) = h) ∧ (∀ b : Vector Byte 8, blockBytes (blockHalves b) = b) ∧
  ∀ (sbox : SboxTable) (input output : Vector Byte 8) (ks : Keystream),
    decryptBytes sbox input ks = some output ↔
      decryptBlock sbox (blockHalves input).1 (blockHalves input).2 ks = some (blockHalves output)

/-- R4, R158: what a DECRYPT completion leaves in the block depends on the block and the keystream alone. -/
def Obligations.PlaintextDependsOnBlockAndKeystreamAlone : Prop :=
  ∀ (s s' t : State) (rest rest' : List Event),
    s.schedule = .complete :: rest → s'.schedule = .complete :: rest' → s.op = .decrypt → s'.op = .decrypt →
    s.blkH = s'.blkH → s.blkL = s'.blkL → s.ks = s'.ks → step s = .next t →
    ∃ t', step s' = .next t' ∧ t'.blkH = t.blkH ∧ t'.blkL = t.blkL

/-! ### The machine as a whole -/

/-- R28, R115, R157, R171, R202: every step keeps the state sound, whatever the event. -/
def Obligations.StepKeepsTheStateSound : Prop :=
  ∀ s t : State, s.Sound → step s = .next t → t.Sound

/-- The state after reset is sound. -/
def Obligations.ResetStateIsSound : Prop := State.reset.Sound

/-- R140, R205, R208: from a sound state no run of any length stops, whatever accesses, completions and resets it meets; it is
sound at its end. -/
def Obligations.NoRunFromASoundStateStops : Prop :=
  ∀ (n : Nat) (s : State), s.Sound → ∃ t : State, Host.Core.run Sys2Proof.core n s = .next t ∧ t.Sound

/-- R239, R240: whatever the host still does, a run reaches its end state one step after the last event. That the step after the
last event is the completion is the model's form of weak fairness (log 2). -/
def Obligations.EveryScheduleReachesItsEnd : Prop :=
  ∀ s : State, s.Sound → ∃ t : State,
    Host.Core.run Sys2Proof.core (s.schedule.length + 1) s = .next t ∧ t.AtEnd

/-! ### Several units and a clock -/

/-- R214: a step of one unit is that unit's own step and changes no other unit. -/
def Obligations.UnitsDoNotDisturbEachOther : Prop :=
  ∀ (k : Nat) (units units' : List State), platformStep k units = .next units' →
    units'.length = units.length ∧ (∀ j, j ≠ k → units'[j]? = units[j]?) ∧
    ∀ s, units[k]? = some s → ∃ t, step s = .next t ∧ units'[k]? = some t

/-- R173, R185: a clock cycle without reset is at most two steps of the untimed CORE. The clock is the model's (log 9). -/
def Obligations.ClockCyclesAreUntimedSteps : Prop :=
  ∀ (c : ClockCycle) (u u' : TimedUnit), c.reset = false → clockCycle c u = .next u' →
    ∃ events : List Event, events.length ≤ 2 ∧
      Host.Core.run Sys2Proof.core events.length { u.core with schedule := events } =
        .next { u'.core with schedule := [] }

/-- R173, R238: a latency is at least 1 and at most its parameter; a pending operation counts down and completes when its cycles
are over. The clock is the model's (log 9). -/
def Obligations.LatencyCountsDownToCompletion : Prop :=
  (∀ (op : Op) (k : Nat), 1 ≤ latency op k ∧ latency op k ≤ latencyBound op) ∧
  (∀ (c : ClockCycle) (u : TimedUnit), c.reset = false → u.core.op ≠ .none → 2 ≤ u.left →
    ∃ u', clockCycle c u = .next u' ∧ u'.core.op = u.core.op ∧ u'.left = u.left - 1) ∧
  ∀ (u u' : TimedUnit) (first : Bool), u.core.op ≠ .none → u.left = 1 →
    clockCycle ⟨false, none, first⟩ u = .next u' → u'.core.op = .none
end

