-- ==== Sys2Proof/Laws/Datapath.lean ====
section
/-! SUPPORT. What the datapath's shared operations can do: widths, the S-box read, and when a half-round, a cipher round and
DecryptBlock answer (41_round_function.md R137, R140; 42_block_decrypt.md R152 to R154). -/

namespace Sys2Proof.Machine

/-! ### Widths -/

theorem word_mask_lt (x : Word) : (x &&& 0x3FF).toNat < 2 ^ 10 := by
  rw [BitVec.toNat_and]
  exact Nat.lt_of_le_of_lt Nat.and_le_right (by decide)

theorem scramble1_lt (x : Word) : (scramble1 x).toNat < 2 ^ 20 := by
  unfold scramble1
  simp only [BitVec.toNat_or]
  refine Nat.or_lt_two_pow (Nat.or_lt_two_pow ?_ ?_) ?_
  · exact Nat.lt_trans (word_mask_lt _) (by decide)
  · have h : (x &&& 3).toNat ≤ 3 := by
      rw [BitVec.toNat_and]
      exact Nat.and_le_right
    rw [BitVec.toNat_shiftLeft, Nat.shiftLeft_eq]
    omega
  · rw [BitVec.toNat_shiftLeft, BitVec.toNat_ushiftRight, Nat.shiftLeft_eq, Nat.shiftRight_eq_div_pow]
    omega

theorem scramble2_lt (x : Word) : (scramble2 x).toNat < 2 ^ 20 := by
  unfold scramble2
  simp only [BitVec.toNat_or]
  refine Nat.or_lt_two_pow (Nat.lt_trans (word_mask_lt _) (by decide)) ?_
  have h : (x &&& (0x3FF <<< 8)).toNat ≤ 0x3FF00 := by
    rw [BitVec.toNat_and]
    exact Nat.and_le_right
  rw [BitVec.toNat_shiftLeft, Nat.shiftLeft_eq]
  omega

theorem swapMask_lt (x k2 : Word) : (swapMask x k2).toNat < 2 ^ 20 := by
  unfold swapMask
  rw [BitVec.toNat_and, BitVec.toNat_xor]
  exact Nat.lt_of_le_of_lt Nat.and_le_right (Nat.xor_lt_two_pow (scramble1_lt x) (scramble2_lt x))

theorem operand1_lt {x k1 k2 : Word} (h : k1.toNat < 2 ^ 20) : (operand1 x k1 k2).toNat < 2 ^ 20 := by
  unfold operand1
  rw [BitVec.toNat_xor, BitVec.toNat_xor]
  exact Nat.xor_lt_two_pow (Nat.xor_lt_two_pow (swapMask_lt x k2) (scramble2_lt x)) h

theorem operand2_lt {x k0 k2 : Word} (h : k0.toNat < 2 ^ 20) : (operand2 x k0 k2).toNat < 2 ^ 20 := by
  unfold operand2
  rw [BitVec.toNat_xor, BitVec.toNat_xor]
  exact Nat.xor_lt_two_pow (Nat.xor_lt_two_pow (swapMask_lt x k2) (scramble1_lt x)) h

/-! ### The lookup -/

theorem sboxRead_of_lt (sbox : SboxTable) {i : Nat} (h : i < 4096) : sboxRead sbox i = some (sbox (BitVec.ofNat 12 i)) :=
  if_pos h

theorem sboxRead_eq_none {sbox : SboxTable} {i : Nat} : sboxRead sbox i = none ↔ 4096 ≤ i := by
  unfold sboxRead
  split <;> simp <;> omega

theorem indexA_lt (t : Word) : indexA t < 4096 := by
  unfold indexA
  rw [BitVec.toNat_or]
  exact Nat.or_lt_two_pow (n := 12) (Nat.lt_trans (word_mask_lt t) (by decide)) (by decide)

theorem indexB_lt (t : Word) : indexB t < 4096 := by
  unfold indexB
  rw [BitVec.toNat_or]
  exact Nat.or_lt_two_pow (n := 12) (Nat.lt_trans (word_mask_lt t) (by decide)) (by decide)

theorem indexC_lt {t : Word} (h : t.toNat < 2 ^ 20) : indexC t < 4096 := by
  unfold indexC
  rw [BitVec.toNat_or]
  refine Nat.or_lt_two_pow (n := 12) ?_ (by decide)
  rw [BitVec.toNat_ushiftRight, Nat.shiftRight_eq_div_pow]
  omega

theorem indexD_lt {t : Word} (h : t.toNat < 2 ^ 20) : indexD t < 4096 := by
  unfold indexD
  rw [BitVec.toNat_ushiftRight, Nat.shiftRight_eq_div_pow]
  omega

/-- The lookup tree answers the OR of its four entries when its four indices are in the table. -/
theorem lookupTree_of_lt (sbox : SboxTable) {t1 t2 : Word} (hc : indexC t1 < 4096) (hd : indexD t2 < 4096) :
    lookupTree sbox t1 t2 =
      some (sbox (BitVec.ofNat 12 (indexA t1)) ||| sbox (BitVec.ofNat 12 (indexB t2))
        ||| sbox (BitVec.ofNat 12 (indexC t1)) ||| sbox (BitVec.ofNat 12 (indexD t2))) := by
  simp only [lookupTree, sboxRead_of_lt sbox (indexA_lt t1), sboxRead_of_lt sbox (indexB_lt t2),
    sboxRead_of_lt sbox hc, sboxRead_of_lt sbox hd]

/-- F answers when sk[0] and sk[1] are below 2^20 (R140). -/
theorem roundF_isSome (sbox : SboxTable) (x : Word) {k0 k1 : Word} (k2 : Word) (h0 : k0.toNat < 2 ^ 20)
    (h1 : k1.toNat < 2 ^ 20) : (roundF sbox x k0 k1 k2).isSome = true := by
  unfold roundF
  rw [lookupTree_of_lt sbox (indexC_lt (operand1_lt h1)) (indexD_lt (operand2_lt h0))]
  rfl

/-! ### The cipher rounds -/

/-- A cipher round is its two half-rounds, the second from the L the first wrote (R152, R153). -/
theorem cipherRound_eq_some {sbox : SboxTable} {ks : Keystream} {lr lr' : Word × Word} {c : Fin 8} :
    cipherRound sbox ks lr c = some lr' ↔
      firstHalf sbox ks c lr.1 lr.2 = some lr'.1 ∧ secondHalf sbox ks c lr'.1 lr.2 = some lr'.2 := by
  obtain ⟨l', r'⟩ := lr'
  unfold cipherRound
  constructor
  · intro h
    split at h
    · cases h
    · next l hl =>
      split at h
      · cases h
      · next r hr =>
        cases h
        exact ⟨hl, hr⟩
  · rintro ⟨hl, hr⟩
    simp only at hl hr
    simp only [hl, hr]

/-- With every word below 2^20 a cipher round answers. -/
theorem cipherRound_isSome (sbox : SboxTable) {ks : Keystream} (hk : ∀ j : Fin 48, ks[j].toNat < 2 ^ 20)
    (lr : Word × Word) (c : Fin 8) : (cipherRound sbox ks lr c).isSome = true := by
  have hw : ∀ j : Fin 6, (sliceWord ks c j).toNat < 2 ^ 20 := fun j => hk ⟨_, sliceOffset_lt c j⟩
  obtain ⟨f, hf⟩ := Option.isSome_iff_exists.mp (roundF_isSome sbox lr.2 (sliceWord ks c 5) (hw 3) (hw 4))
  obtain ⟨g, hg⟩ := Option.isSome_iff_exists.mp (roundF_isSome sbox (lr.1 ^^^ f) (sliceWord ks c 2) (hw 0) (hw 1))
  simp [cipherRound, firstHalf, secondHalf, hf, hg]

/-- With every word below 2^20 any list of cipher rounds answers. -/
theorem cipherRounds_isSome (sbox : SboxTable) {ks : Keystream} (hk : ∀ j : Fin 48, ks[j].toNat < 2 ^ 20)
    (cs : List (Fin 8)) (lr : Word × Word) : (cipherRounds sbox ks lr cs).isSome = true := by
  induction cs generalizing lr with
  | nil => rfl
  | cons c cs ih =>
    obtain ⟨lr', h⟩ := Option.isSome_iff_exists.mp (cipherRound_isSome sbox hk lr c)
    simp only [cipherRounds, h]
    exact ih lr'

/-- With every word of KS below 2^20 DecryptBlock answers (R140). -/
theorem decryptBlock_isSome (sbox : SboxTable) {ks : Keystream} (hk : ∀ j : Fin 48, ks[j].toNat < 2 ^ 20)
    (hi lo : Word) : (decryptBlock sbox hi lo ks).isSome = true := by
  unfold decryptBlock
  rw [Option.isSome_map]
  exact cipherRounds_isSome sbox hk _ _

/-! ### The key schedule -/

/-- One iteration steps every register, whichever word it feeds (R109). -/
@[simp] theorem ksIteration_v (st : RoundWork) (j : Nat) : (ksIteration st j).v = st.v.stepAll := by
  unfold ksIteration
  simp only
  split <;> rfl

/-- A KS round steps every register 15 times from the rotated registers (R100, R105). -/
theorem ksRound_v (v : KeyRegs) (d : Nat) : (ksRound v d).v = KeyRegs.stepAll^[15] (v.rotate d) := by
  simp [ksRound, List.range_succ]

end Sys2Proof.Machine
end

