-- ==== Sys2Proof/Laws/Ops.lean ====
section
/-! SUPPORT. One lemma per shared operation that says once everything it can do; proofs cite it instead of unfolding the
operation. -/

namespace Sys2Proof.Machine

/-! ### Sequencing -/

@[simp] theorem andThen_next {α β : Type} (a : α) (k : α → Host.Outcome β Fault Refusal) :
    andThen (.next a) k = k a := rfl

/-- A sequence goes on exactly when both of its parts do. -/
theorem andThen_eq_next {α β : Type} {o : Host.Outcome α Fault Refusal} {k : α → Host.Outcome β Fault Refusal} {b : β} :
    andThen o k = .next b ↔ ∃ a, o = .next a ∧ k a = .next b := by
  cases o <;> simp [andThen]

/-! ### How an access ends -/

theorem finishWrite_eq (s : State) : finishWrite s = .next (s.returning 0) := rfl

theorem finishRead_eq (s : State) (v : Word) : finishRead s v = .next (s.returning v) := rfl

theorem raiseError_eq (s : State) (code : ErrCode) : raiseError s code = .next ((s.recordError code).returning 0) := rfl

theorem whenIdle_of_idle {s : State} (h : s.op = .none) (k : Result) : whenIdle s k = k := by
  simp [whenIdle, h]

theorem whenIdle_of_busy {s : State} (h : s.op ≠ .none) (k : Result) : whenIdle s k = raiseError s .busy := by
  simp [whenIdle, h]

/-- The busy check either lets the idle CORE go on or records BUSY. -/
theorem whenIdle_eq_next {s t : State} {k : Result} :
    whenIdle s k = .next t ↔
      (s.op = .none ∧ k = .next t) ∨ (s.op ≠ .none ∧ t = (s.recordError .busy).returning 0) := by
  by_cases h : s.op = .none
  · simp [whenIdle, h]
  · simp [whenIdle, h, raiseError, eq_comm]

/-- DECRYPT is accepted with a keystream, or NOKEY is recorded. -/
theorem offerDecrypt_eq_next {s t : State} :
    offerDecrypt s = .next t ↔
      (s.ksv = true ∧ t = s.acceptDecrypt.returning 0) ∨
      (s.ksv = false ∧ t = (s.recordError .noKey).returning 0) := by
  cases h : s.ksv <;> simp [offerDecrypt, h, finishWrite, raiseError, eq_comm]

/-- A block read returns the register of an idle CORE, or draws the value it returns. -/
theorem readBlock_eq_next {s t : State} {reg : Word} :
    readBlock s reg = .next t ↔
      (s.op = .none ∧ t = s.returning reg) ∨
      (s.op ≠ .none ∧ t = { s with draws := s.draws + 1 }.returning (Config.drawBits 32 s.draws)) := by
  by_cases h : s.op = .none
  · simp [readBlock, h, finishRead, eq_comm]
  · simp [readBlock, h, finishRead, eq_comm]

/-- The WR_CMD step in one line per outcome (R172). -/
theorem execWrCmd_eq_next {w : Word} {s t : State} (h : execWrCmd w s = .next t) :
    t = (s.recordError .busy).returning 0 ∨ t = (s.recordError .badCmd).returning 0 ∨
    t = s.returning 0 ∨ t = s.acceptKeygen.returning 0 ∨ t = s.acceptDecrypt.returning 0 ∨
    t = (s.recordError .noKey).returning 0 ∨ t = s.acceptZeroize.returning 0 := by
  unfold execWrCmd at h
  split at h
  · cases h; exact .inl rfl
  split at h
  · cases h; exact .inr (.inl rfl)
  split at h
  · cases h; exact .inr (.inr (.inl rfl))
  · cases h; exact .inr (.inr (.inr (.inl rfl)))
  · obtain ⟨-, rfl⟩ | ⟨-, rfl⟩ := offerDecrypt_eq_next.mp h
    · simp
    · simp
  · cases h; simp

/-! ### The engine, reset and the step -/

/-- What the completion step can do (R173). -/
theorem completeOp_eq_next {s t : State} :
    completeOp s = .next t ↔
      (s.op = .none ∧ t = s) ∨ (s.op = .keygen ∧ t = s.keygenDone) ∨
      (s.op = .decrypt ∧ ∃ b, decryptBlock Config.sbox s.blkH s.blkL s.ks = some b ∧ t = s.decryptDone b) ∨
      (s.op = .zeroize ∧ t = s.zeroizeDone) := by
  cases h : s.op
  · simp [completeOp, h, eq_comm]
  · simp [completeOp, h, eq_comm]
  · cases hd : decryptBlock Config.sbox s.blkH s.blkL s.ks <;> simp [completeOp, h, hd, eq_comm]
  · simp [completeOp, h, eq_comm]

/-- The only way the completion step stops (R137). -/
theorem completeOp_eq_fault {s : State} {f : Fault} :
    completeOp s = .fault f ↔ s.op = .decrypt ∧ decryptBlock Config.sbox s.blkH s.blkL s.ks = none := by
  cases f
  cases h : s.op
  · simp [completeOp, h]
  · simp [completeOp, h]
  · cases hd : decryptBlock Config.sbox s.blkH s.blkL s.ks <;> simp [completeOp, h, hd]
  · simp [completeOp, h]

/-- The completion step is never refused. -/
theorem completeOp_ne_refused (s : State) (q : Refusal) : completeOp s ≠ .refused q := by
  cases h : s.op
  · simp [completeOp, h]
  · simp [completeOp, h]
  · cases hd : decryptBlock Config.sbox s.blkH s.blkL s.ks <;> simp [completeOp, h, hd]
  · simp [completeOp, h]

theorem takeStep_nil {s : State} (h : s.schedule = []) : takeStep s = completeOp s := by
  simp [takeStep, h]

theorem takeStep_cons {s : State} {e : Event} {rest : List Event} (h : s.schedule = e :: rest) :
    takeStep s = runEvent e { s with schedule := rest } := by
  simp [takeStep, h]

/-- The event that an instruction placed by `issueNext` becomes. -/
theorem takeStep_issueNext (s : State) (t : Transaction) : takeStep (s.issueNext t) = hostAccess t s := rfl

/-- The fields the spec gives a reset value are the same after a reset step as in State.reset (R41, R230). -/
theorem State.resetStep_agrees_with_reset (s : State) :
    s.resetStep.key = State.reset.key ∧ s.resetStep.blkH = State.reset.blkH ∧ s.resetStep.blkL = State.reset.blkL ∧
    s.resetStep.ksv = State.reset.ksv ∧ s.resetStep.err = State.reset.err ∧ s.resetStep.eovf = State.reset.eovf ∧
    s.resetStep.errCode = State.reset.errCode ∧ s.resetStep.op = State.reset.op := by
  refine ⟨rfl, rfl, rfl, rfl, rfl, rfl, rfl, rfl⟩

/-! ### Several units, and the clock -/

/-- A unit's number decides what a platform step does. -/
theorem platformStep_eq_next {k : Nat} {units units' : List State} :
    platformStep k units = .next units' ↔
      (units[k]? = none ∧ units' = units) ∨
      ∃ s t, units[k]? = some s ∧ takeStep s = .next t ∧ units' = units.set k t := by
  cases h : units[k]? with
  | none => simp [platformStep, h, eq_comm]
  | some s =>
    simp only [platformStep, h, andThen_eq_next]
    constructor
    · rintro ⟨t, ht, hu⟩
      cases hu
      exact .inr ⟨s, t, rfl, ht, rfl⟩
    · rintro (⟨hn, -⟩ | ⟨s', t, hs, ht, rfl⟩)
      · cases hn
      · cases hs
        exact ⟨t, ht, rfl⟩

/-- A bus transaction outside every window reaches no CORE (R51). -/
theorem busAccess_outside {addr : Nat} (h : busRoute addr = none) (a : Access) (sz : BitVec 2) (units : List State) :
    busAccess a sz addr units = .next units := by
  simp [busAccess, h]

/-- The access of a clock cycle. -/
theorem timedAccess_eq_next {a : Option Transaction} {u u' : TimedUnit} :
    timedAccess a u = .next u' ↔
      (a = none ∧ u' = u) ∨ ∃ t s, a = some t ∧ hostAccess t u.core = .next s ∧ u' = u.afterAccess s := by
  cases a with
  | none => simp [timedAccess, eq_comm]
  | some t =>
    simp only [timedAccess, andThen_eq_next]
    constructor
    · rintro ⟨s, hs, hu⟩
      cases hu
      exact .inr ⟨t, s, rfl, hs, rfl⟩
    · rintro (⟨hn, -⟩ | ⟨t', s, ht, hs, rfl⟩)
      · cases hn
      · cases ht
        exact ⟨s, hs, rfl⟩

/-- The completion of a clock cycle. -/
theorem timedCompletion_eq_next {u u' : TimedUnit} :
    timedCompletion u = .next u' ↔
      (¬(u.core.op ≠ .none ∧ u.left = 0) ∧ u' = u) ∨
      (u.core.op ≠ .none ∧ u.left = 0) ∧ ∃ s, completeOp u.core = .next s ∧ u' = { u with core := s } := by
  by_cases h : u.core.op ≠ .none ∧ u.left = 0
  · simp only [timedCompletion, if_pos h, andThen_eq_next]
    constructor
    · rintro ⟨s, hs, hu⟩
      cases hu
      exact .inr ⟨h, s, hs, rfl⟩
    · rintro (⟨hn, -⟩ | ⟨-, s, hs, rfl⟩)
      · exact absurd h hn
      · exact ⟨s, hs, rfl⟩
  · simp only [timedCompletion, if_neg h]
    constructor
    · intro hu
      cases hu
      exact .inl ⟨h, rfl⟩
    · rintro (⟨-, rfl⟩ | ⟨hp, -⟩)
      · rfl
      · exact absurd hp h

end Sys2Proof.Machine
end

