-- ==== Sys2Proof/Laws/State.lean ====
section
/-! SUPPORT. One lemma per field and per update of State, each true by rfl, so that no proof unfolds a record update. -/

namespace Sys2Proof.Machine

/-! ### returning -/

@[simp] theorem State.returning_key (s : State) (w : Word) : (s.returning w).key = s.key := rfl
@[simp] theorem State.returning_blkH (s : State) (w : Word) : (s.returning w).blkH = s.blkH := rfl
@[simp] theorem State.returning_blkL (s : State) (w : Word) : (s.returning w).blkL = s.blkL := rfl
@[simp] theorem State.returning_ksv (s : State) (w : Word) : (s.returning w).ksv = s.ksv := rfl
@[simp] theorem State.returning_err (s : State) (w : Word) : (s.returning w).err = s.err := rfl
@[simp] theorem State.returning_eovf (s : State) (w : Word) : (s.returning w).eovf = s.eovf := rfl
@[simp] theorem State.returning_errCode (s : State) (w : Word) : (s.returning w).errCode = s.errCode := rfl
@[simp] theorem State.returning_op (s : State) (w : Word) : (s.returning w).op = s.op := rfl
@[simp] theorem State.returning_ks (s : State) (w : Word) : (s.returning w).ks = s.ks := rfl
@[simp] theorem State.returning_v (s : State) (w : Word) : (s.returning w).v = s.v := rfl
@[simp] theorem State.returning_l (s : State) (w : Word) : (s.returning w).l = s.l := rfl
@[simp] theorem State.returning_r (s : State) (w : Word) : (s.returning w).r = s.r := rfl
@[simp] theorem State.returning_counters (s : State) (w : Word) : (s.returning w).counters = s.counters := rfl
@[simp] theorem State.returning_schedule (s : State) (w : Word) : (s.returning w).schedule = s.schedule := rfl
@[simp] theorem State.returning_rdata (s : State) (w : Word) : (s.returning w).rdata = w := rfl
@[simp] theorem State.returning_draws (s : State) (w : Word) : (s.returning w).draws = s.draws := rfl

/-! ### recordError -/

@[simp] theorem State.recordError_key (s : State) (c : ErrCode) : (s.recordError c).key = s.key := rfl
@[simp] theorem State.recordError_blkH (s : State) (c : ErrCode) : (s.recordError c).blkH = s.blkH := rfl
@[simp] theorem State.recordError_blkL (s : State) (c : ErrCode) : (s.recordError c).blkL = s.blkL := rfl
@[simp] theorem State.recordError_ksv (s : State) (c : ErrCode) : (s.recordError c).ksv = s.ksv := rfl
@[simp] theorem State.recordError_err (s : State) (c : ErrCode) : (s.recordError c).err = true := rfl
@[simp] theorem State.recordError_eovf (s : State) (c : ErrCode) : (s.recordError c).eovf = (s.eovf || s.err) := rfl
@[simp] theorem State.recordError_errCode (s : State) (c : ErrCode) :
    (s.recordError c).errCode = if s.err then s.errCode else c := rfl
@[simp] theorem State.recordError_op (s : State) (c : ErrCode) : (s.recordError c).op = s.op := rfl
@[simp] theorem State.recordError_ks (s : State) (c : ErrCode) : (s.recordError c).ks = s.ks := rfl
@[simp] theorem State.recordError_v (s : State) (c : ErrCode) : (s.recordError c).v = s.v := rfl
@[simp] theorem State.recordError_l (s : State) (c : ErrCode) : (s.recordError c).l = s.l := rfl
@[simp] theorem State.recordError_r (s : State) (c : ErrCode) : (s.recordError c).r = s.r := rfl
@[simp] theorem State.recordError_counters (s : State) (c : ErrCode) : (s.recordError c).counters = s.counters := rfl
@[simp] theorem State.recordError_schedule (s : State) (c : ErrCode) : (s.recordError c).schedule = s.schedule := rfl
@[simp] theorem State.recordError_rdata (s : State) (c : ErrCode) : (s.recordError c).rdata = s.rdata := rfl
@[simp] theorem State.recordError_draws (s : State) (c : ErrCode) : (s.recordError c).draws = s.draws := rfl

/-! ### clearErrors -/

@[simp] theorem State.clearErrors_key (s : State) : (s.clearErrors).key = s.key := rfl
@[simp] theorem State.clearErrors_blkH (s : State) : (s.clearErrors).blkH = s.blkH := rfl
@[simp] theorem State.clearErrors_blkL (s : State) : (s.clearErrors).blkL = s.blkL := rfl
@[simp] theorem State.clearErrors_ksv (s : State) : (s.clearErrors).ksv = s.ksv := rfl
@[simp] theorem State.clearErrors_err (s : State) : (s.clearErrors).err = false := rfl
@[simp] theorem State.clearErrors_eovf (s : State) : (s.clearErrors).eovf = false := rfl
@[simp] theorem State.clearErrors_errCode (s : State) : (s.clearErrors).errCode = .none := rfl
@[simp] theorem State.clearErrors_op (s : State) : (s.clearErrors).op = s.op := rfl
@[simp] theorem State.clearErrors_ks (s : State) : (s.clearErrors).ks = s.ks := rfl
@[simp] theorem State.clearErrors_v (s : State) : (s.clearErrors).v = s.v := rfl
@[simp] theorem State.clearErrors_l (s : State) : (s.clearErrors).l = s.l := rfl
@[simp] theorem State.clearErrors_r (s : State) : (s.clearErrors).r = s.r := rfl
@[simp] theorem State.clearErrors_counters (s : State) : (s.clearErrors).counters = s.counters := rfl
@[simp] theorem State.clearErrors_schedule (s : State) : (s.clearErrors).schedule = s.schedule := rfl
@[simp] theorem State.clearErrors_rdata (s : State) : (s.clearErrors).rdata = s.rdata := rfl
@[simp] theorem State.clearErrors_draws (s : State) : (s.clearErrors).draws = s.draws := rfl

/-! ### acceptKeygen -/

@[simp] theorem State.acceptKeygen_key (s : State) : (s.acceptKeygen).key = s.key := rfl
@[simp] theorem State.acceptKeygen_blkH (s : State) : (s.acceptKeygen).blkH = s.blkH := rfl
@[simp] theorem State.acceptKeygen_blkL (s : State) : (s.acceptKeygen).blkL = s.blkL := rfl
@[simp] theorem State.acceptKeygen_ksv (s : State) : (s.acceptKeygen).ksv = false := rfl
@[simp] theorem State.acceptKeygen_err (s : State) : (s.acceptKeygen).err = s.err := rfl
@[simp] theorem State.acceptKeygen_eovf (s : State) : (s.acceptKeygen).eovf = s.eovf := rfl
@[simp] theorem State.acceptKeygen_errCode (s : State) : (s.acceptKeygen).errCode = s.errCode := rfl
@[simp] theorem State.acceptKeygen_op (s : State) : (s.acceptKeygen).op = .keygen := rfl
@[simp] theorem State.acceptKeygen_ks (s : State) : (s.acceptKeygen).ks = s.ks := rfl
@[simp] theorem State.acceptKeygen_v (s : State) : (s.acceptKeygen).v = s.v := rfl
@[simp] theorem State.acceptKeygen_l (s : State) : (s.acceptKeygen).l = s.l := rfl
@[simp] theorem State.acceptKeygen_r (s : State) : (s.acceptKeygen).r = s.r := rfl
@[simp] theorem State.acceptKeygen_counters (s : State) : (s.acceptKeygen).counters = s.counters := rfl
@[simp] theorem State.acceptKeygen_schedule (s : State) : (s.acceptKeygen).schedule = s.schedule := rfl
@[simp] theorem State.acceptKeygen_rdata (s : State) : (s.acceptKeygen).rdata = s.rdata := rfl
@[simp] theorem State.acceptKeygen_draws (s : State) : (s.acceptKeygen).draws = s.draws := rfl

/-! ### acceptDecrypt -/

@[simp] theorem State.acceptDecrypt_key (s : State) : (s.acceptDecrypt).key = s.key := rfl
@[simp] theorem State.acceptDecrypt_blkH (s : State) : (s.acceptDecrypt).blkH = s.blkH := rfl
@[simp] theorem State.acceptDecrypt_blkL (s : State) : (s.acceptDecrypt).blkL = s.blkL := rfl
@[simp] theorem State.acceptDecrypt_ksv (s : State) : (s.acceptDecrypt).ksv = s.ksv := rfl
@[simp] theorem State.acceptDecrypt_err (s : State) : (s.acceptDecrypt).err = s.err := rfl
@[simp] theorem State.acceptDecrypt_eovf (s : State) : (s.acceptDecrypt).eovf = s.eovf := rfl
@[simp] theorem State.acceptDecrypt_errCode (s : State) : (s.acceptDecrypt).errCode = s.errCode := rfl
@[simp] theorem State.acceptDecrypt_op (s : State) : (s.acceptDecrypt).op = .decrypt := rfl
@[simp] theorem State.acceptDecrypt_ks (s : State) : (s.acceptDecrypt).ks = s.ks := rfl
@[simp] theorem State.acceptDecrypt_v (s : State) : (s.acceptDecrypt).v = s.v := rfl
@[simp] theorem State.acceptDecrypt_l (s : State) : (s.acceptDecrypt).l = s.l := rfl
@[simp] theorem State.acceptDecrypt_r (s : State) : (s.acceptDecrypt).r = s.r := rfl
@[simp] theorem State.acceptDecrypt_counters (s : State) : (s.acceptDecrypt).counters = s.counters := rfl
@[simp] theorem State.acceptDecrypt_schedule (s : State) : (s.acceptDecrypt).schedule = s.schedule := rfl
@[simp] theorem State.acceptDecrypt_rdata (s : State) : (s.acceptDecrypt).rdata = s.rdata := rfl
@[simp] theorem State.acceptDecrypt_draws (s : State) : (s.acceptDecrypt).draws = s.draws := rfl

/-! ### acceptZeroize -/

@[simp] theorem State.acceptZeroize_key (s : State) : (s.acceptZeroize).key = s.key := rfl
@[simp] theorem State.acceptZeroize_blkH (s : State) : (s.acceptZeroize).blkH = s.blkH := rfl
@[simp] theorem State.acceptZeroize_blkL (s : State) : (s.acceptZeroize).blkL = s.blkL := rfl
@[simp] theorem State.acceptZeroize_ksv (s : State) : (s.acceptZeroize).ksv = false := rfl
@[simp] theorem State.acceptZeroize_err (s : State) : (s.acceptZeroize).err = s.err := rfl
@[simp] theorem State.acceptZeroize_eovf (s : State) : (s.acceptZeroize).eovf = s.eovf := rfl
@[simp] theorem State.acceptZeroize_errCode (s : State) : (s.acceptZeroize).errCode = s.errCode := rfl
@[simp] theorem State.acceptZeroize_op (s : State) : (s.acceptZeroize).op = .zeroize := rfl
@[simp] theorem State.acceptZeroize_ks (s : State) : (s.acceptZeroize).ks = s.ks := rfl
@[simp] theorem State.acceptZeroize_v (s : State) : (s.acceptZeroize).v = s.v := rfl
@[simp] theorem State.acceptZeroize_l (s : State) : (s.acceptZeroize).l = s.l := rfl
@[simp] theorem State.acceptZeroize_r (s : State) : (s.acceptZeroize).r = s.r := rfl
@[simp] theorem State.acceptZeroize_counters (s : State) : (s.acceptZeroize).counters = s.counters := rfl
@[simp] theorem State.acceptZeroize_schedule (s : State) : (s.acceptZeroize).schedule = s.schedule := rfl
@[simp] theorem State.acceptZeroize_rdata (s : State) : (s.acceptZeroize).rdata = s.rdata := rfl
@[simp] theorem State.acceptZeroize_draws (s : State) : (s.acceptZeroize).draws = s.draws := rfl

/-! ### drawKeystream -/

@[simp] theorem State.drawKeystream_key (s : State) : (s.drawKeystream).key = s.key := rfl
@[simp] theorem State.drawKeystream_blkH (s : State) : (s.drawKeystream).blkH = s.blkH := rfl
@[simp] theorem State.drawKeystream_blkL (s : State) : (s.drawKeystream).blkL = s.blkL := rfl
@[simp] theorem State.drawKeystream_ksv (s : State) : (s.drawKeystream).ksv = s.ksv := rfl
@[simp] theorem State.drawKeystream_err (s : State) : (s.drawKeystream).err = s.err := rfl
@[simp] theorem State.drawKeystream_eovf (s : State) : (s.drawKeystream).eovf = s.eovf := rfl
@[simp] theorem State.drawKeystream_errCode (s : State) : (s.drawKeystream).errCode = s.errCode := rfl
@[simp] theorem State.drawKeystream_op (s : State) : (s.drawKeystream).op = s.op := rfl
@[simp] theorem State.drawKeystream_ks (s : State) : (s.drawKeystream).ks = freeKeystream s.draws := rfl
@[simp] theorem State.drawKeystream_v (s : State) : (s.drawKeystream).v = s.v := rfl
@[simp] theorem State.drawKeystream_l (s : State) : (s.drawKeystream).l = s.l := rfl
@[simp] theorem State.drawKeystream_r (s : State) : (s.drawKeystream).r = s.r := rfl
@[simp] theorem State.drawKeystream_counters (s : State) : (s.drawKeystream).counters = s.counters := rfl
@[simp] theorem State.drawKeystream_schedule (s : State) : (s.drawKeystream).schedule = s.schedule := rfl
@[simp] theorem State.drawKeystream_rdata (s : State) : (s.drawKeystream).rdata = s.rdata := rfl
@[simp] theorem State.drawKeystream_draws (s : State) : (s.drawKeystream).draws = s.draws + 48 := rfl

/-! ### dropKeygenWork -/

@[simp] theorem State.dropKeygenWork_key (s : State) : (s.dropKeygenWork).key = s.key := rfl
@[simp] theorem State.dropKeygenWork_blkH (s : State) : (s.dropKeygenWork).blkH = s.blkH := rfl
@[simp] theorem State.dropKeygenWork_blkL (s : State) : (s.dropKeygenWork).blkL = s.blkL := rfl
@[simp] theorem State.dropKeygenWork_ksv (s : State) : (s.dropKeygenWork).ksv = s.ksv := rfl
@[simp] theorem State.dropKeygenWork_err (s : State) : (s.dropKeygenWork).err = s.err := rfl
@[simp] theorem State.dropKeygenWork_eovf (s : State) : (s.dropKeygenWork).eovf = s.eovf := rfl
@[simp] theorem State.dropKeygenWork_errCode (s : State) : (s.dropKeygenWork).errCode = s.errCode := rfl
@[simp] theorem State.dropKeygenWork_op (s : State) : (s.dropKeygenWork).op = s.op := rfl
@[simp] theorem State.dropKeygenWork_ks (s : State) : (s.dropKeygenWork).ks = s.ks := rfl
@[simp] theorem State.dropKeygenWork_l (s : State) : (s.dropKeygenWork).l = s.l := rfl
@[simp] theorem State.dropKeygenWork_r (s : State) : (s.dropKeygenWork).r = s.r := rfl
@[simp] theorem State.dropKeygenWork_schedule (s : State) : (s.dropKeygenWork).schedule = s.schedule := rfl
@[simp] theorem State.dropKeygenWork_rdata (s : State) : (s.dropKeygenWork).rdata = s.rdata := rfl
@[simp] theorem State.dropKeygenWork_draws (s : State) : (s.dropKeygenWork).draws = s.draws + 7 := rfl

/-! ### dropDecryptWork -/

@[simp] theorem State.dropDecryptWork_key (s : State) : (s.dropDecryptWork).key = s.key := rfl
@[simp] theorem State.dropDecryptWork_blkH (s : State) : (s.dropDecryptWork).blkH = s.blkH := rfl
@[simp] theorem State.dropDecryptWork_blkL (s : State) : (s.dropDecryptWork).blkL = s.blkL := rfl
@[simp] theorem State.dropDecryptWork_ksv (s : State) : (s.dropDecryptWork).ksv = s.ksv := rfl
@[simp] theorem State.dropDecryptWork_err (s : State) : (s.dropDecryptWork).err = s.err := rfl
@[simp] theorem State.dropDecryptWork_eovf (s : State) : (s.dropDecryptWork).eovf = s.eovf := rfl
@[simp] theorem State.dropDecryptWork_errCode (s : State) : (s.dropDecryptWork).errCode = s.errCode := rfl
@[simp] theorem State.dropDecryptWork_op (s : State) : (s.dropDecryptWork).op = s.op := rfl
@[simp] theorem State.dropDecryptWork_ks (s : State) : (s.dropDecryptWork).ks = s.ks := rfl
@[simp] theorem State.dropDecryptWork_v (s : State) : (s.dropDecryptWork).v = s.v := rfl
@[simp] theorem State.dropDecryptWork_l (s : State) : (s.dropDecryptWork).l = Config.drawBits 32 s.draws := rfl
@[simp] theorem State.dropDecryptWork_r (s : State) : (s.dropDecryptWork).r = Config.drawBits 32 (s.draws + 1) := rfl
@[simp] theorem State.dropDecryptWork_schedule (s : State) : (s.dropDecryptWork).schedule = s.schedule := rfl
@[simp] theorem State.dropDecryptWork_rdata (s : State) : (s.dropDecryptWork).rdata = s.rdata := rfl
@[simp] theorem State.dropDecryptWork_draws (s : State) : (s.dropDecryptWork).draws = s.draws + 4 := rfl

/-! ### clearRegisters -/

@[simp] theorem State.clearRegisters_key (s : State) : (s.clearRegisters).key = 0 := rfl
@[simp] theorem State.clearRegisters_blkH (s : State) : (s.clearRegisters).blkH = 0 := rfl
@[simp] theorem State.clearRegisters_blkL (s : State) : (s.clearRegisters).blkL = 0 := rfl
@[simp] theorem State.clearRegisters_ksv (s : State) : (s.clearRegisters).ksv = false := rfl
@[simp] theorem State.clearRegisters_err (s : State) : (s.clearRegisters).err = false := rfl
@[simp] theorem State.clearRegisters_eovf (s : State) : (s.clearRegisters).eovf = false := rfl
@[simp] theorem State.clearRegisters_errCode (s : State) : (s.clearRegisters).errCode = .none := rfl
@[simp] theorem State.clearRegisters_op (s : State) : (s.clearRegisters).op = .none := rfl
@[simp] theorem State.clearRegisters_ks (s : State) : (s.clearRegisters).ks = s.ks := rfl
@[simp] theorem State.clearRegisters_v (s : State) : (s.clearRegisters).v = s.v := rfl
@[simp] theorem State.clearRegisters_l (s : State) : (s.clearRegisters).l = s.l := rfl
@[simp] theorem State.clearRegisters_r (s : State) : (s.clearRegisters).r = s.r := rfl
@[simp] theorem State.clearRegisters_counters (s : State) : (s.clearRegisters).counters = s.counters := rfl
@[simp] theorem State.clearRegisters_schedule (s : State) : (s.clearRegisters).schedule = s.schedule := rfl
@[simp] theorem State.clearRegisters_rdata (s : State) : (s.clearRegisters).rdata = s.rdata := rfl
@[simp] theorem State.clearRegisters_draws (s : State) : (s.clearRegisters).draws = s.draws := rfl

/-! ### resetStep -/

@[simp] theorem State.resetStep_key (s : State) : (s.resetStep).key = 0 := rfl
@[simp] theorem State.resetStep_blkH (s : State) : (s.resetStep).blkH = 0 := rfl
@[simp] theorem State.resetStep_blkL (s : State) : (s.resetStep).blkL = 0 := rfl
@[simp] theorem State.resetStep_ksv (s : State) : (s.resetStep).ksv = false := rfl
@[simp] theorem State.resetStep_err (s : State) : (s.resetStep).err = false := rfl
@[simp] theorem State.resetStep_eovf (s : State) : (s.resetStep).eovf = false := rfl
@[simp] theorem State.resetStep_errCode (s : State) : (s.resetStep).errCode = .none := rfl
@[simp] theorem State.resetStep_op (s : State) : (s.resetStep).op = .none := rfl
@[simp] theorem State.resetStep_ks (s : State) : (s.resetStep).ks = freeKeystream s.draws := rfl
@[simp] theorem State.resetStep_schedule (s : State) : (s.resetStep).schedule = s.schedule := rfl
@[simp] theorem State.resetStep_rdata (s : State) : (s.resetStep).rdata = s.rdata := rfl
@[simp] theorem State.resetStep_draws (s : State) : (s.resetStep).draws = s.draws + 59 := rfl

/-! ### keygenDone -/

@[simp] theorem State.keygenDone_key (s : State) : (s.keygenDone).key = s.key := rfl
@[simp] theorem State.keygenDone_blkH (s : State) : (s.keygenDone).blkH = s.blkH := rfl
@[simp] theorem State.keygenDone_blkL (s : State) : (s.keygenDone).blkL = s.blkL := rfl
@[simp] theorem State.keygenDone_ksv (s : State) : (s.keygenDone).ksv = true := rfl
@[simp] theorem State.keygenDone_err (s : State) : (s.keygenDone).err = s.err := rfl
@[simp] theorem State.keygenDone_eovf (s : State) : (s.keygenDone).eovf = s.eovf := rfl
@[simp] theorem State.keygenDone_errCode (s : State) : (s.keygenDone).errCode = s.errCode := rfl
@[simp] theorem State.keygenDone_op (s : State) : (s.keygenDone).op = .none := rfl
@[simp] theorem State.keygenDone_ks (s : State) : (s.keygenDone).ks = keySchedule s.key := rfl
@[simp] theorem State.keygenDone_l (s : State) : (s.keygenDone).l = s.l := rfl
@[simp] theorem State.keygenDone_r (s : State) : (s.keygenDone).r = s.r := rfl
@[simp] theorem State.keygenDone_schedule (s : State) : (s.keygenDone).schedule = s.schedule := rfl
@[simp] theorem State.keygenDone_rdata (s : State) : (s.keygenDone).rdata = s.rdata := rfl
@[simp] theorem State.keygenDone_draws (s : State) : (s.keygenDone).draws = s.draws + 7 := rfl

/-! ### decryptDone -/

@[simp] theorem State.decryptDone_key (s : State) (b : Word × Word) : (s.decryptDone b).key = s.key := rfl
@[simp] theorem State.decryptDone_blkH (s : State) (b : Word × Word) : (s.decryptDone b).blkH = b.1 := rfl
@[simp] theorem State.decryptDone_blkL (s : State) (b : Word × Word) : (s.decryptDone b).blkL = b.2 := rfl
@[simp] theorem State.decryptDone_ksv (s : State) (b : Word × Word) : (s.decryptDone b).ksv = s.ksv := rfl
@[simp] theorem State.decryptDone_err (s : State) (b : Word × Word) : (s.decryptDone b).err = s.err := rfl
@[simp] theorem State.decryptDone_eovf (s : State) (b : Word × Word) : (s.decryptDone b).eovf = s.eovf := rfl
@[simp] theorem State.decryptDone_errCode (s : State) (b : Word × Word) : (s.decryptDone b).errCode = s.errCode := rfl
@[simp] theorem State.decryptDone_op (s : State) (b : Word × Word) : (s.decryptDone b).op = .none := rfl
@[simp] theorem State.decryptDone_ks (s : State) (b : Word × Word) : (s.decryptDone b).ks = s.ks := rfl
@[simp] theorem State.decryptDone_v (s : State) (b : Word × Word) : (s.decryptDone b).v = s.v := rfl
@[simp] theorem State.decryptDone_schedule (s : State) (b : Word × Word) :
    (s.decryptDone b).schedule = s.schedule := rfl
@[simp] theorem State.decryptDone_rdata (s : State) (b : Word × Word) : (s.decryptDone b).rdata = s.rdata := rfl
@[simp] theorem State.decryptDone_draws (s : State) (b : Word × Word) : (s.decryptDone b).draws = s.draws + 4 := rfl

/-! ### zeroizeDone -/

@[simp] theorem State.zeroizeDone_key (s : State) : (s.zeroizeDone).key = 0 := rfl
@[simp] theorem State.zeroizeDone_blkH (s : State) : (s.zeroizeDone).blkH = 0 := rfl
@[simp] theorem State.zeroizeDone_blkL (s : State) : (s.zeroizeDone).blkL = 0 := rfl
@[simp] theorem State.zeroizeDone_ksv (s : State) : (s.zeroizeDone).ksv = s.ksv := rfl
@[simp] theorem State.zeroizeDone_err (s : State) : (s.zeroizeDone).err = s.err := rfl
@[simp] theorem State.zeroizeDone_eovf (s : State) : (s.zeroizeDone).eovf = s.eovf := rfl
@[simp] theorem State.zeroizeDone_errCode (s : State) : (s.zeroizeDone).errCode = s.errCode := rfl
@[simp] theorem State.zeroizeDone_op (s : State) : (s.zeroizeDone).op = .none := rfl
@[simp] theorem State.zeroizeDone_ks (s : State) : (s.zeroizeDone).ks = Vector.replicate 48 0 := rfl
@[simp] theorem State.zeroizeDone_v (s : State) : (s.zeroizeDone).v = s.v := rfl
@[simp] theorem State.zeroizeDone_l (s : State) : (s.zeroizeDone).l = s.l := rfl
@[simp] theorem State.zeroizeDone_r (s : State) : (s.zeroizeDone).r = s.r := rfl
@[simp] theorem State.zeroizeDone_counters (s : State) : (s.zeroizeDone).counters = s.counters := rfl
@[simp] theorem State.zeroizeDone_schedule (s : State) : (s.zeroizeDone).schedule = s.schedule := rfl
@[simp] theorem State.zeroizeDone_rdata (s : State) : (s.zeroizeDone).rdata = s.rdata := rfl
@[simp] theorem State.zeroizeDone_draws (s : State) : (s.zeroizeDone).draws = s.draws := rfl

/-! ### issueNext -/

@[simp] theorem State.issueNext_key (s : State) (t : Transaction) : (s.issueNext t).key = s.key := rfl
@[simp] theorem State.issueNext_blkH (s : State) (t : Transaction) : (s.issueNext t).blkH = s.blkH := rfl
@[simp] theorem State.issueNext_blkL (s : State) (t : Transaction) : (s.issueNext t).blkL = s.blkL := rfl
@[simp] theorem State.issueNext_ksv (s : State) (t : Transaction) : (s.issueNext t).ksv = s.ksv := rfl
@[simp] theorem State.issueNext_err (s : State) (t : Transaction) : (s.issueNext t).err = s.err := rfl
@[simp] theorem State.issueNext_eovf (s : State) (t : Transaction) : (s.issueNext t).eovf = s.eovf := rfl
@[simp] theorem State.issueNext_errCode (s : State) (t : Transaction) : (s.issueNext t).errCode = s.errCode := rfl
@[simp] theorem State.issueNext_op (s : State) (t : Transaction) : (s.issueNext t).op = s.op := rfl
@[simp] theorem State.issueNext_ks (s : State) (t : Transaction) : (s.issueNext t).ks = s.ks := rfl
@[simp] theorem State.issueNext_v (s : State) (t : Transaction) : (s.issueNext t).v = s.v := rfl
@[simp] theorem State.issueNext_l (s : State) (t : Transaction) : (s.issueNext t).l = s.l := rfl
@[simp] theorem State.issueNext_r (s : State) (t : Transaction) : (s.issueNext t).r = s.r := rfl
@[simp] theorem State.issueNext_counters (s : State) (t : Transaction) : (s.issueNext t).counters = s.counters := rfl
@[simp] theorem State.issueNext_schedule (s : State) (t : Transaction) :
    (s.issueNext t).schedule = .access t :: s.schedule := rfl
@[simp] theorem State.issueNext_rdata (s : State) (t : Transaction) : (s.issueNext t).rdata = s.rdata := rfl
@[simp] theorem State.issueNext_draws (s : State) (t : Transaction) : (s.issueNext t).draws = s.draws := rfl

end Sys2Proof.Machine
end

