-- ==== Sys2Proof/Laws/HostProgram.lean ====
section
/-! SUPPORT. What a host's turn can do, and that WAIT repeats exactly while BUSY reads 1 and ends (30_encoding.md R91;
70_reset_and_hazards.md R239, R240). -/

namespace Sys2Proof.Machine

/-! ### The fields of a host after an operation -/

@[simp] theorem HostRun.afterAccess_core (h : HostRun) (bound : Option String) (ops : List HostOp) (s : State) :
    (h.afterAccess bound ops s).core = s := rfl
@[simp] theorem HostRun.afterAccess_ops (h : HostRun) (bound : Option String) (ops : List HostOp) (s : State) :
    (h.afterAccess bound ops s).ops = ops := rfl
@[simp] theorem HostRun.afterAccess_met (h : HostRun) (bound : Option String) (ops : List HostOp) (s : State) :
    (h.afterAccess bound ops s).met = h.met := rfl
@[simp] theorem HostRun.afterPoll_core (h : HostRun) (name : String) (rest : List HostOp) (s : State) :
    (h.afterPoll name rest s).core = s := rfl
@[simp] theorem HostRun.afterPoll_ops (h : HostRun) (name : String) (rest : List HostOp) (s : State) :
    (h.afterPoll name rest s).ops = if s.rdata.getLsbD 0 then .poll name :: rest else rest := rfl
@[simp] theorem HostRun.afterPoll_met (h : HostRun) (name : String) (rest : List HostOp) (s : State) :
    (h.afterPoll name rest s).met = h.met := rfl
@[simp] theorem HostRun.afterExpect_core (h : HostRun) (name : String) (value : Word) (rest : List HostOp) :
    (h.afterExpect name value rest).core = h.core := rfl
@[simp] theorem HostRun.afterExpect_ops (h : HostRun) (name : String) (value : Word) (rest : List HostOp) :
    (h.afterExpect name value rest).ops = rest := rfl

/-- A read binds its value to its name. -/
@[simp] theorem HostRun.afterAccess_value (h : HostRun) (name : String) (ops : List HostOp) (s : State) :
    (h.afterAccess (some name) ops s).value name = some s.rdata := by
  simp [HostRun.value, HostRun.afterAccess]

/-- A poll binds its value to its name. -/
@[simp] theorem HostRun.afterPoll_value (h : HostRun) (name : String) (rest : List HostOp) (s : State) :
    (h.afterPoll name rest s).value name = some s.rdata :=
  h.afterAccess_value name _ s

/-! ### WAIT -/

/-- Bit 0 of the STATUS word is BUSY (R27). -/
theorem State.statusWord_bit_zero (s : State) : s.statusWord.getLsbD 0 = s.busy := by
  cases hb : s.busy <;> cases hc : s.errCode <;> cases he : s.eovf <;> cases hr : s.err <;> cases hk : s.ksv <;>
    simp [State.statusWord, ErrCode.bits, flagWord, hb, hc, he, hr, hk]

/-- A poll reads the STATUS word and changes nothing else in the unit. -/
theorem hostTurn_poll {h : HostRun} {name : String} {rest : List HostOp} (ho : h.ops = .poll name :: rest) :
    hostTurn h = .next (h.afterPoll name rest (h.core.returning h.core.statusWord)) := by
  simp only [hostTurn, ho]
  rfl

/-- While an operation is pending, WAIT repeats: the poll stands again, and the name has a value with bit 0 = 1. -/
theorem wait_repeats_while_busy {h : HostRun} {name : String} {rest : List HostOp} (ho : h.ops = .poll name :: rest)
    (hb : h.core.op ≠ .none) :
    ∃ h', hostTurn h = .next h' ∧ h'.ops = h.ops ∧ h'.core = h.core.returning h.core.statusWord ∧
      h'.value name = some h.core.statusWord ∧ h.core.statusWord.getLsbD 0 = true := by
  have h0 : h.core.statusWord.getLsbD 0 = true := by
    rw [State.statusWord_bit_zero, State.busy]
    exact bne_iff_ne.mpr hb
  refine ⟨_, hostTurn_poll ho, ?_, rfl, HostRun.afterPoll_value .., h0⟩
  simp only [HostRun.afterPoll_ops, State.returning_rdata, h0, if_true, ho]

/-- With no operation pending, WAIT ends: the next line comes, and the name has the last STATUS value, with bit 0 = 0. -/
theorem wait_ends_when_idle {h : HostRun} {name : String} {rest : List HostOp} (ho : h.ops = .poll name :: rest)
    (hi : h.core.op = .none) :
    ∃ h', hostTurn h = .next h' ∧ h'.ops = rest ∧ h'.core = h.core.returning h.core.statusWord ∧
      h'.value name = some h.core.statusWord ∧ h.core.statusWord.getLsbD 0 = false := by
  have h0 : h.core.statusWord.getLsbD 0 = false := by
    rw [State.statusWord_bit_zero, State.busy, hi]
    rfl
  refine ⟨_, hostTurn_poll ho, ?_, rfl, HostRun.afterPoll_value .., h0⟩
  simp only [HostRun.afterPoll_ops, State.returning_rdata, h0, Bool.false_eq_true, if_false]

/-! ### What a turn can do -/

/-- The host's turn, operation by operation. -/
theorem hostTurn_cases {h h' : HostRun} (ht : hostTurn h = .next h') :
    (h.ops = [] ∧ h' = h) ∨
    (∃ t bound rest s, h.ops = .access t bound :: rest ∧ hostAccess t h.core = .next s ∧
      h' = h.afterAccess bound rest s) ∨
    (∃ name rest, h.ops = .poll name :: rest ∧
      h' = h.afterPoll name rest (h.core.returning h.core.statusWord)) ∨
    ∃ name value rest, h.ops = .expect name value :: rest ∧ h' = h.afterExpect name value rest := by
  cases ho : h.ops with
  | nil =>
    simp only [hostTurn, ho] at ht
    cases ht
    exact .inl ⟨rfl, rfl⟩
  | cons op rest =>
    cases op with
    | access t bound =>
      simp only [hostTurn, ho] at ht
      obtain ⟨s, hs, hn⟩ := andThen_eq_next.mp ht
      cases hn
      exact .inr (.inl ⟨t, bound, rest, s, rfl, hs, rfl⟩)
    | poll name =>
      rw [hostTurn_poll ho] at ht
      cases ht
      exact .inr (.inr (.inl ⟨name, rest, rfl, rfl⟩))
    | expect name value =>
      simp only [hostTurn, ho] at ht
      cases ht
      exact .inr (.inr (.inr ⟨name, value, rest, rfl, rfl⟩))

/-- An idle unit's host never waits: its turn does away with its first operation. -/
theorem hostTurn_of_idle {h h' : HostRun} {op : HostOp} {rest : List HostOp} (ho : h.ops = op :: rest)
    (hi : h.core.op = .none) (ht : hostTurn h = .next h') : h'.ops = rest := by
  obtain ⟨hn, -⟩ | ⟨t, b, r, s, hc, -, rfl⟩ | ⟨n, r, hc, rfl⟩ | ⟨n, v, r, hc, rfl⟩ := hostTurn_cases ht
  · rw [hn] at ho
    cases ho
  · rw [ho] at hc
    cases hc
    rfl
  · obtain ⟨h'', hn, hr, -⟩ := wait_ends_when_idle hc hi
    rw [hostTurn_poll hc] at hn
    cases hn
    rw [hr]
    rw [ho] at hc
    cases hc
    rfl
  · rw [ho] at hc
    cases hc
    rfl

/-- The engine's turn leaves no operation pending and the host where it was. -/
theorem completeTurn_spec {h h' : HostRun} (ht : runTurn .complete h = .next h') :
    h'.ops = h.ops ∧ h'.core.op = .none := by
  obtain ⟨s, hs, hn⟩ := andThen_eq_next.mp ht
  cases hn
  obtain ⟨ho, rfl⟩ | ⟨-, rfl⟩ | ⟨-, b, -, rfl⟩ | ⟨-, rfl⟩ := completeOp_eq_next.mp hs
  · exact ⟨rfl, ho⟩
  · exact ⟨rfl, rfl⟩
  · exact ⟨rfl, rfl⟩
  · exact ⟨rfl, rfl⟩

/-- Under fairness a host comes to its end, every WAIT in its program with it, and no operation is pending then. -/
theorem fairTurns_reach_end (n : Nat) {h h' : HostRun} (hl : h.ops.length = n)
    (ht : runTurns (fairTurns n) h = .next h') : h'.ops = [] ∧ h'.core.op = .none := by
  induction n generalizing h with
  | zero =>
    obtain ⟨h1, h1c, hn⟩ := andThen_eq_next.mp ht
    cases hn
    obtain ⟨he, hi⟩ := completeTurn_spec h1c
    exact ⟨he.trans (List.length_eq_zero_iff.mp hl), hi⟩
  | succ n ih =>
    obtain ⟨h1, h1c, ht1⟩ := andThen_eq_next.mp ht
    obtain ⟨h2, h2c, ht2⟩ := andThen_eq_next.mp ht1
    obtain ⟨he, hi⟩ := completeTurn_spec h1c
    obtain ⟨op, rest, ho⟩ := List.exists_cons_of_length_eq_add_one hl
    have hr : h2.ops = rest := hostTurn_of_idle (he.trans ho) hi h2c
    refine ih ?_ ht2
    rw [hr]
    simpa [ho] using hl

/-- The end state of a program (R240): all of it has run, and nothing is pending. -/
theorem runProgram_ends {program : List ProgramLine} {turns : List Turn} {s : State} {h : HostRun}
    (hr : runProgram program turns s = .next h) : h.ops = [] ∧ h.core.op = .none := by
  obtain ⟨h1, -, hn⟩ := andThen_eq_next.mp hr
  exact fairTurns_reach_end _ rfl hn

end Sys2Proof.Machine
end

