-- ==== Sys2Proof/Laws/PerInstr.lean ====
section
/-! SUPPORT. The family InTable: the encoding of every well-formed instruction stands in a row of spec/opcode_table.json that
has its mnemonic. -/

namespace Sys2Proof

/-- A row of the table has the instruction's mnemonic and covers the word. -/
def Instr.hasRow (i : Instr) (rows : List TableRow) (w : Nat) : Bool :=
  rows.any fun r => r.mnemonic == i.mnemonic && r.covers w

/-- The table's note on ILLEGAL_CMD (R86): every command word with RSV not 0 belongs to it. -/
def Instr.hasNote (i : Instr) (w : Word) : Bool := i.mnemonic == "ILLEGAL_CMD" && cmdRsv w != 0

/-- What InTable says of one instruction. -/
def Laws.InTable.Statement (i : Instr) : Prop :=
  i.WellFormed →
    (match encode i with
      | .access t => i.hasRow accessRows t.desc.toNat
      | .command w => i.hasRow commandRows w.toNat || i.hasNote w) = true

theorem Laws.InTable.nop : Laws.InTable.Statement .nop := fun _ => rfl
theorem Laws.InTable.keygen : Laws.InTable.Statement .keygen := fun _ => rfl
theorem Laws.InTable.decrypt : Laws.InTable.Statement .decrypt := fun _ => rfl
theorem Laws.InTable.zeroize : Laws.InTable.Statement .zeroize := fun _ => rfl

/-- A word with RSV = 0 is one of 16; the illegal ones among them are 4 to 15. -/
theorem Laws.InTable.low_word (o : BitVec 4) : legalCommandWord (o.setWidth 32) = false →
    (Instr.illegalCmd (o.setWidth 32)).hasRow commandRows (o.setWidth 32 : Word).toNat = true := by
  revert o
  decide +kernel

theorem Laws.InTable.illegalCmd (w : Word) : Laws.InTable.Statement (.illegalCmd w) := by
  intro hw
  have hl : legalCommandWord w = false := by simpa [Instr.WellFormed, Instr.wellFormed] using hw
  show (_ || _) = true
  by_cases hr : cmdRsv w = 0
  · have he : w = (w.extractLsb' 0 4).setWidth 32 := by
      apply BitVec.eq_of_toNat_eq
      have h := congrArg BitVec.toNat hr
      simp [cmdRsv, BitVec.extractLsb'_toNat, Nat.shiftRight_eq_div_pow] at h ⊢
      omega
    rw [he] at hl ⊢
    rw [Laws.InTable.low_word _ hl, Bool.true_or]
  · have hn : (Instr.illegalCmd w).hasNote w = true := by simpa [Instr.hasNote, Instr.mnemonic] using hr
    rw [hn, Bool.or_true]

theorem Laws.InTable.wrCmd (w : Word) : Laws.InTable.Statement (.wrCmd w) := by
  intro _
  simp only [encode, Instr.hasRow, Instr.mnemonic]
  decide

theorem Laws.InTable.rdCmd : Laws.InTable.Statement .rdCmd := fun _ => rfl
theorem Laws.InTable.rdStatus : Laws.InTable.Statement .rdStatus := fun _ => rfl
theorem Laws.InTable.wrStatus (w : Word) : Laws.InTable.Statement (.wrStatus w) := by
  intro _
  simp only [encode, Instr.hasRow, Instr.mnemonic]
  decide

theorem Laws.InTable.rdKey : Laws.InTable.Statement .rdKey := fun _ => rfl
theorem Laws.InTable.wrKey (w : Word) : Laws.InTable.Statement (.wrKey w) := by
  intro _
  simp only [encode, Instr.hasRow, Instr.mnemonic]
  decide

theorem Laws.InTable.rdBlkH : Laws.InTable.Statement .rdBlkH := fun _ => rfl
theorem Laws.InTable.rdBlkL : Laws.InTable.Statement .rdBlkL := fun _ => rfl
theorem Laws.InTable.wrBlkH (w : Word) : Laws.InTable.Statement (.wrBlkH w) := by
  intro _
  simp only [encode, Instr.hasRow, Instr.mnemonic]
  decide

theorem Laws.InTable.wrBlkL (w : Word) : Laws.InTable.Statement (.wrBlkL w) := by
  intro _
  simp only [encode, Instr.hasRow, Instr.mnemonic]
  decide


/-- Every reserved offset is in an RSV_ACCESS row, read or write. -/
theorem Laws.InTable.reserved (b : Bool) (off : Byte) : reservedOffset off = true →
    (Instr.rsvAccess .read off).hasRow accessRows (mkDescriptor b 2 off).toNat = true := by
  revert b off
  decide +kernel

theorem Laws.InTable.rsvAccess (a : Access) (off : Byte) : Laws.InTable.Statement (.rsvAccess a off) := by
  intro h
  cases a with
  | read => exact Laws.InTable.reserved false off h
  | write w => exact Laws.InTable.reserved true off h

/-- Every ill-formed size and offset is in a BAD_ACCESS row, read or write. -/
theorem Laws.InTable.illFormed (b : Bool) (sz : BitVec 2) (off : Byte) : illFormedAccess sz off = true →
    (Instr.badAccess .read sz off).hasRow accessRows (mkDescriptor b sz off).toNat = true := by
  revert b sz off
  decide +kernel

theorem Laws.InTable.badAccess (a : Access) (sz : BitVec 2) (off : Byte) :
    Laws.InTable.Statement (.badAccess a sz off) := by
  intro h
  cases a with
  | read => exact Laws.InTable.illFormed false sz off h
  | write w => exact Laws.InTable.illFormed true sz off h

end Sys2Proof
end

