-- ==== Sys2Proof/Laws/Run.lean ====
section
/-! SUPPORT. The equations of a run of the CORE, one step at a time. -/

namespace Sys2Proof.Machine

theorem run_zero (s : State) : Host.Core.run Sys2Proof.core 0 s = .next s :=
  Host.Core.run.eq_1 Sys2Proof.core s

theorem run_succ_of_next {s t : State} (n : Nat) (h : step s = .next t) :
    Host.Core.run Sys2Proof.core (n + 1) s = Host.Core.run Sys2Proof.core n t := by
  have h' : Sys2Proof.core.step s = .next t := h
  refine (Host.Core.run.eq_2 Sys2Proof.core s n).trans ?_
  rw [h']

theorem run_succ_of_fault {s : State} {f : Fault} (n : Nat) (h : step s = .fault f) :
    Host.Core.run Sys2Proof.core (n + 1) s = .fault f := by
  have h' : Sys2Proof.core.step s = .fault f := h
  refine (Host.Core.run.eq_2 Sys2Proof.core s n).trans ?_
  rw [h']

theorem run_succ_of_refused {s : State} {q : Refusal} (n : Nat) (h : step s = .refused q) :
    Host.Core.run Sys2Proof.core (n + 1) s = .refused q := by
  have h' : Sys2Proof.core.step s = .refused q := h
  refine (Host.Core.run.eq_2 Sys2Proof.core s n).trans ?_
  rw [h']

end Sys2Proof.Machine
end

