-- ==== Sys2Proof/Tests/Slice0.lean ====
section
/-! SUPPORT. Our own tests. Expected values are the spec's: its encoding tables (30_encoding.md R81 to R86), its examples
(43_control.md) and its test vectors (95_test_vectors.md). At the end: one witness for each statement's hypotheses. -/

namespace Sys2Proof.Tests

open Sys2Proof Sys2Proof.Machine

/-! ### Helpers -/

/-- The next state of an outcome. -/
def nextOf (o : Result) : Option State :=
  match o with
  | .next t => some t
  | _ => none

/-- STATUS after an outcome. -/
def statusOf (o : Result) : Option Word := (nextOf o).map State.statusWord

/-- What an outcome's access returned. -/
def rdataOf (o : Result) : Option Word := (nextOf o).map State.rdata

/-- From reset, with an operation pending. -/
def pending (op : Op) : State := { State.reset with op := op }

/-- From reset, KEYGEN with KEY = 0 completed. -/
def keyed : State := { State.reset with ksv := true, ks := keySchedule 0 }

/-- From reset, one DECRYPT rejected (STATUS = 0x54). -/
def failed : State := { State.reset with err := true, errCode := .noKey }

/-- T_ZERO, T_ID and T_LANE of 95_test_vectors.md. -/
def tZero : SboxTable := fun _ => 0
def tId : SboxTable := fun i => i.setWidth 32
def tLane : SboxTable := fun i => ((i.setWidth 32 * 0x9E3779B1#32) >>> 24) <<< (8 * (i.toNat >>> 10))

/-! ### WellFormed refuses what no row has -/

theorem test_wf_illegalCmd : (Instr.illegalCmd 3).wellFormed = false := by decide
theorem test_wf_rsvAccess_named : (Instr.rsvAccess .read 0x14).wellFormed = false := by decide
theorem test_wf_rsvAccess_unaligned : (Instr.rsvAccess (.write 0) 0x1A).wellFormed = false := by decide
theorem test_wf_badAccess : (Instr.badAccess .read 2 0x04).wellFormed = false := by decide

/-! ### Decoding: words written from R81 (W, SZ, OFF) and R82 (RSV, OPC) -/

theorem test_decode_nop : decode (.command 0b00000000000000000000000000000000) = .nop := by decide
theorem test_decode_keygen : decode (.command 0b00000000000000000000000000000001) = .keygen := by decide
theorem test_decode_decrypt : decode (.command 0b00000000000000000000000000000010) = .decrypt := by decide
theorem test_decode_zeroize : decode (.command 0b00000000000000000000000000000011) = .zeroize := by decide
theorem test_decode_illegal_opc : decode (.command 0x0000000F) = .illegalCmd 0xF := by decide
theorem test_decode_illegal_rsv : decode (.command 0x00000010) = .illegalCmd 0x10 := by decide
theorem test_decode_wrCmd : decode (.access ⟨0b1_10_00000000, 9⟩) = .wrCmd 9 := by decide
theorem test_decode_rdCmd : decode (.access ⟨0b0_10_00000000, 9⟩) = .rdCmd := by decide
theorem test_decode_rdStatus : decode (.access ⟨0b0_10_00000100, 0⟩) = .rdStatus := by decide
theorem test_decode_wrStatus : decode (.access ⟨0b1_10_00000100, 9⟩) = .wrStatus 9 := by decide
theorem test_decode_rdKey : decode (.access ⟨0b0_10_00001000, 0⟩) = .rdKey := by decide
theorem test_decode_wrKey : decode (.access ⟨0b1_10_00001000, 9⟩) = .wrKey 9 := by decide
theorem test_decode_rdBlkH : decode (.access ⟨0b0_10_00010000, 0⟩) = .rdBlkH := by decide
theorem test_decode_rdBlkL : decode (.access ⟨0b0_10_00010100, 0⟩) = .rdBlkL := by decide
theorem test_decode_wrBlkH : decode (.access ⟨0b1_10_00010000, 9⟩) = .wrBlkH 9 := by decide
theorem test_decode_wrBlkL : decode (.access ⟨0b1_10_00010100, 9⟩) = .wrBlkL 9 := by decide
theorem test_decode_rsv_write : decode (.access ⟨0x60C, 9⟩) = .rsvAccess (.write 9) 0x0C := by decide
theorem test_decode_rsv_last : decode (.access ⟨0x2FC, 9⟩) = .rsvAccess .read 0xFC := by decide
theorem test_decode_bad_size : decode (.access ⟨0x304, 0⟩) = .badAccess .read 3 0x04 := by decide
theorem test_decode_bad_offset : decode (.access ⟨0x212, 0⟩) = .badAccess .read 2 0x12 := by decide
/-- A 1-byte write at a reserved offset is BADACC, not BADADDR (section 2.1). -/
theorem test_decode_bad_before_rsv : decode (.access ⟨0x40D, 9⟩) = .badAccess (.write 9) 0 0x0D := by decide
theorem test_table_word_command : decodeTableWord 32 0x00000002 = some .decrypt := by decide
theorem test_table_word_access : decodeTableWord 16 0x608 = some (.wrKey 0) := by decide
theorem test_table_word_not_a_descriptor : decodeTableWord 16 0x800 = none := by decide

/-! ### Key schedule: K1, K2, K3, K4, K6 -/

theorem test_stepReg_zero : stepReg 0x0000 = 0x8000 := by decide
theorem test_stepReg_complement : [0x0001, 0xFFFF, 0xFFFE, 0x8000, 0x1234, 0x1235, 0xA5A5].map stepReg =
    [0x0000, 0x7FFF, 0xFFFF, 0xC000, 0x891A, 0x091A, 0x52D2] := by decide
theorem test_rotate : [0, 1, 2, 3].map (KeyRegs.rotate ⟨0xA, 0xB, 0xC, 0xD⟩) =
    [⟨0xA, 0xB, 0xC, 0xD⟩, ⟨0xB, 0xC, 0xD, 0xA⟩, ⟨0xC, 0xD, 0xA, 0xB⟩, ⟨0xD, 0xA, 0xB, 0xC⟩] := by decide
theorem test_subkeys : (subkey1 0x12345678, subkey2 0x12345678) = (0x1407FFE0, 0x5C5864C1) := by decide
theorem test_loadKeyRegs : loadKeyRegs 0x4C1EBEDD = ⟨0x4A2D, 0x1745, 0x0272, 0x8C64⟩ := by decide
theorem test_finalKeyRegs : finalKeyRegs 0x4C1EBEDD = ⟨0xFD8D, 0x739B, 0xB5D2, 0xE8BA⟩ := by decide +kernel
/-- K6: the registers after KS round 0 of key 0. -/
theorem test_round_zero : ksRound (loadKeyRegs 0) 0 =
    ⟨⟨0xF398, 0xACCF, 0x6326, 0x9A8C⟩, 0x000972B1, 0x0008D5A5, 0x0002B462⟩ := by decide +kernel
theorem test_keystream_key : (keySchedule 0x4C1EBEDD).toList =
    [0xC87E4, 0x22050, 0xDB498, 0x2487C, 0x6E127, 0xBBF5F, 0xD8805, 0xB7E16, 0x32DB1, 0x09B48, 0x4EEF5, 0x812D3,
     0xEB7E1, 0xF32DB, 0xD8805, 0x31BBF, 0x82487, 0x06E12, 0x5F64B, 0x3B110, 0xD7ED2, 0xE4124, 0x50378, 0x98DDF,
     0x7CE44, 0x27DB7, 0x5F91E, 0x0A09B, 0x2C4EE, 0x72812, 0x24EB7, 0xFAF32, 0xE9D88, 0xB498D, 0x7E412, 0x05037,
     0xEF5F6, 0x2D3B1, 0x48D7E, 0x1ED82, 0x40A06, 0x7831B, 0x24B67, 0x781BE, 0xDFAFC, 0x88050, 0x7E162, 0x2DB14] := by
  decide +kernel

/-! ### Round function: R1, R2 -/

theorem test_scramble1 : [0xFFFFFFFF, 0x12345678, 0x80000001, 0x03000000, 0xDEADBEEF].map scramble1 =
    [0xFFFFF, 0x04A34, 0x60000, 0x00F00, 0xF7AAD] := by decide
theorem test_scramble2 : [0xFFFFFFFF, 0x12345678, 0x80000001, 0x00000300, 0x00030000, 0xDEADBEEF].map scramble2 =
    [0xFFFFF, 0x15A78, 0x00001, 0x00F00, 0xC0000, 0x6FAEF] := by decide
theorem test_tree_indices :
    let t1 := operand1 0x12345678 0xABCDE 0xFFFFF
    let t2 := operand2 0x12345678 0x12345 0xFFFFF
    (t1, t2, indexA t1, indexB t2, indexC t1, indexD t2) = (0xAF6EA, 0x0793D, 0xEEA, 0x53D, 0xABD, 0x01E) := by decide
theorem test_tLane_samples : [0x002, 0x3FF, 0x401, 0x800, 0xFFF].map tLane =
    [0x3C, 0x3F, 0x7C00, 0xBB0000, 0xD9000000] := by decide
theorem test_roundF_lane :
    roundF tLane 0xDEADBEEF 0x972B1 0x8D5A5 0x2B462 = some 0x3111F656 := by decide +kernel
theorem test_roundF_or : roundF tId 0x12345678 0x12345 0xABCDE 0 = some 0xFFF := by decide +kernel
/-- 90_conflicts.md C2: index 0x353ACA is outside the table. -/
theorem test_sboxRead_outside : sboxRead tId 0x353ACA = none := by decide
theorem test_sboxRead_last : sboxRead tId 0xFFF = some 0xFFF := by decide
theorem test_sbox_region : (sboxRegion 0xC01, sboxEntry 0xC01) = (3, 1) := by decide

/-! ### Block decryption: D1, D2 -/

theorem test_decrypt_lane : decryptBlock tLane 0x01234567 0x89ABCDEF (keySchedule 0x4C1EBEDD) =
    some (0x34F6E193, 0x6CEEE9A7) := by decide +kernel
theorem test_decrypt_identity : decryptBlock tId 0x01234567 0x89ABCDEF (keySchedule 0) =
    some (0x89ABCDA3, 0x0123476D) := by decide +kernel
/-- D2: cipher round 0. -/
theorem test_cipher_round_zero : cipherRound tLane (keySchedule 0x4C1EBEDD) (0x01234567, 0x89ABCDEF) 0 =
    some (0x4450EB45, 0xC6327BAA) := by decide +kernel
theorem test_block_bytes : blockBytes (0x01234567, 0x89ABCDEF) =
    #v[0x01, 0x23, 0x45, 0x67, 0x89, 0xAB, 0xCD, 0xEF] := by decide

/-! ### The instructions: section 2.5, and the examples of 43_control.md -/

theorem test_nop : statusOf (exec .nop keyed) = some 0x00000002 := by decide
theorem test_nop_busy : statusOf (exec .nop (pending .zeroize)) = some 0x00000035 := by decide
theorem test_keygen : statusOf (exec .keygen keyed) = some 0x00000001 := by decide
theorem test_keygen_completes :
    (nextOf (step { pending .keygen with schedule := [.complete] })).map (fun t => (t.statusWord, t.ks[0], t.ks[47])) =
      some (0x00000002, 0x000972B1, 0x000D8E41) := by decide +kernel
theorem test_decrypt_without_key : statusOf (exec .decrypt State.reset) = some 0x00000054 := by decide
theorem test_decrypt_again : statusOf (exec .decrypt failed) = some 0x0000005C := by decide
theorem test_decrypt_accepted : statusOf (exec .decrypt keyed) = some 0x00000003 := by decide
/-- P3 (A): the second DECRYPT comes too early. -/
theorem test_decrypt_busy : statusOf (exec .decrypt { keyed with op := .decrypt }) = some 0x00000037 := by decide
theorem test_zeroize : statusOf (exec .zeroize keyed) = some 0x00000001 := by decide
theorem test_zeroize_completes :
    (nextOf (step { pending .zeroize with key := 7, blkH := 8, ks := keySchedule 0, schedule := [.complete] })).map
      (fun t => (t.statusWord, t.key, t.blkH, t.ks[47])) = some (0, 0, 0, 0) := by decide
theorem test_illegalCmd : statusOf (exec (.illegalCmd 4) keyed) = some 0x00000046 := by decide
theorem test_wrCmd_illegal : statusOf (exec (.wrCmd 0x80000002) keyed) = some 0x00000046 := by decide
theorem test_wrCmd_decrypt : statusOf (exec (.wrCmd 2) keyed) = some 0x00000003 := by decide
theorem test_rdCmd : rdataOf (exec .rdCmd { keyed with rdata := 9 }) = some 0 := by decide
theorem test_rdStatus : rdataOf (exec .rdStatus { failed with op := .keygen }) = some 0x00000055 := by decide
theorem test_wrStatus_clears : statusOf (exec (.wrStatus 4) { failed with eovf := true, ksv := true }) =
    some 0x00000002 := by decide
theorem test_wrStatus_other_bits : statusOf (exec (.wrStatus 8) failed) = some 0x00000054 := by decide
theorem test_rdKey : rdataOf (exec .rdKey { State.reset with key := 0x4C1EBEDD }) = some 0 := by decide
theorem test_wrKey : (nextOf (exec (.wrKey 0x4C1EBEDD) keyed)).map (fun t => (t.key, t.statusWord)) =
    some (0x4C1EBEDD, 0x00000002) := by decide
theorem test_wrKey_busy : (nextOf (exec (.wrKey 5) (pending .keygen))).map (fun t => (t.key, t.statusWord)) =
    some (0, 0x00000035) := by decide
theorem test_rdBlkH : rdataOf (exec .rdBlkH { keyed with blkH := 0x34F6E193 }) = some 0x34F6E193 := by decide
theorem test_rdBlkL : rdataOf (exec .rdBlkL { keyed with blkL := 0x6CEEE9A7 }) = some 0x6CEEE9A7 := by decide
theorem test_wrBlkH : (nextOf (exec (.wrBlkH 0x01234567) State.reset)).map State.blkH = some 0x01234567 := by decide
theorem test_wrBlkL : (nextOf (exec (.wrBlkL 0x89ABCDEF) State.reset)).map State.blkL = some 0x89ABCDEF := by decide
theorem test_rsvAccess : statusOf (exec (.rsvAccess .read 0x0C) State.reset) = some 0x00000024 := by decide
theorem test_badAccess : statusOf (exec (.badAccess .read 0 0x04) State.reset) = some 0x00000014 := by decide
/-- P6: BADADDR while ERR = 1 sets EOVF and keeps BADACC. -/
theorem test_badAccess_then_reserved :
    statusOf (exec (.rsvAccess (.write 0x12345678) 0x20) { State.reset with err := true, errCode := .badAcc }) =
      some 0x0000001C := by decide

/-! ### Reset, fetch, platform, clock, host programs -/

theorem test_reset_step :
    (nextOf (step { failed with key := 0x4C1EBEDD, blkH := 5, ksv := true, op := .decrypt, schedule := [.reset] })).map
      (fun t => (t.key, t.blkH, t.statusWord)) = some (0, 0, 0) := by decide
theorem test_fetch_command : statusOf (step (State.reset.withFetchWord 32 2)) = some 0x00000054 := by decide
theorem test_fetch_access : statusOf (step (State.reset.withFetchWord 16 0x20C)) = some 0x00000024 := by decide
theorem test_route : routeAmong (fun k => 0x1000 + 0x100 * k) 2 0x1114 = some (1, 0x14) := by decide
theorem test_route_outside : routeAmong (fun k => 0x1000 + 0x100 * k) 2 0x1200 = none := by decide
/-- 70_reset_and_hazards.md R232: a write to KEY while reset is asserted has no effect. -/
theorem test_access_in_reset :
    (match clockCycle ⟨true, some ⟨0x608, 5⟩, false⟩ ⟨State.reset, 0, 0⟩ with
      | .next u => some (u.core.key, u.core.statusWord)
      | _ => none) = some (0, 0) := by decide
theorem test_loadblk : lineTransactions (.loadblk 1 2) = [⟨0x610, 1⟩, ⟨0x614, 2⟩] := by decide
theorem test_wrb : lineTransactions (.wrb 0x00 1) = [⟨0x400, 1⟩] := by decide
theorem test_clrerr : lineTransactions .clrerr = lineTransactions (.wr .status 4) := by decide
theorem test_wait : lineTransactions (.wait "s") = [⟨0x204, 0⟩] := by decide
/-- WAIT polls a busy unit again: after one turn it still stands, and s has bit 0 = 1. -/
theorem test_wait_busy :
    (match hostTurn (HostRun.start [.wait "s"] (pending .zeroize)) with
      | .next h => some (h.ops, h.value "s")
      | _ => none) = some ([.poll "s"], some 0x00000001) := by decide
/-- The end of P4's second line: after the completion WAIT ends with s = 0. -/
theorem test_wait_ends :
    (match runProgram [.wait "s", .expect "s" 0] [.host] (pending .zeroize) with
      | .next h => some (h.ops, h.names, h.met)
      | _ => none) = some ([], [("s", 0x00000000), ("s", 0x00000001)], true) := by decide

/-! ### Witnesses: states and operands that meet the hypotheses of each statement that has any -/

theorem test_witness_DecodeReadsBackEveryEncoding :
    (Instr.illegalCmd 4).WellFormed ∧ (Instr.rsvAccess .read 0x0C).WellFormed ∧
    (Instr.rsvAccess (.write 1) 0x18).WellFormed ∧ (Instr.badAccess (.write 1) 2 1).WellFormed := by decide

theorem test_witness_EncodeGivesBackEveryDecodedWord :
    descWrite 0x600 = true ∧ (Transaction.mk 0x200 0).data = 0 := by decide

theorem test_witness_StepRunsTheDecodedAccess :
    (State.reset.issueNext ⟨0x608, 5⟩).schedule = .access ⟨0x608, 5⟩ :: [] := rfl

theorem test_witness_CommandPortRunsTheOfferedCommand :
    decodeTableWord 32 1 = some .keygen ∧ decodeTableWord 16 0x7FF = some (.badAccess (.write 0) 3 0xFF) := by decide

/-- An idle and a busy state, for every statement about one or both: NopChangesNothing, KeygenIsAcceptedWhenIdle,
ZeroizeIsAcceptedWhenIdle, KeyWriteStoresTheWord, BlockWritesStoreTheWord, BlockReadsReturnTheBlockWhenIdle,
PendingOperationRejectsWrites. -/
theorem test_witness_idle_and_busy : State.reset.op = .none ∧ (pending .keygen).op ≠ .none := by decide

theorem test_witness_DecryptIsAcceptedWithAKeystream :
    (keyed.op = .none ∧ keyed.ksv = true) ∧ (State.reset.op = .none ∧ State.reset.ksv = false) := by decide

theorem test_witness_IllegalWordsRaiseBadCmd :
    State.reset.op = .none ∧ (0x10 : Word).toNat / 16 ≠ 0 ∧ 4 ≤ (0x4 : Word).toNat % 16 ∧
    4 ≤ (0xF : Word).toNat % 16 := by decide

theorem test_witness_StatusWriteClearsTheErrorRecord :
    (4 : Word).toNat / 4 % 2 = 1 ∧ (0xFFFFFFFF : Word).toNat / 4 % 2 = 1 ∧ (3 : Word).toNat / 4 % 2 = 0 ∧
    (8 : Word).toNat / 4 % 2 = 0 := by decide

theorem test_witness_ReservedOffsetsRaiseBadAddr :
    ∀ d ∈ [0x20C#11, 0x218#11, 0x2FC#11, 0x60C#11, 0x618#11, 0x6FC#11],
      d.toNat / 256 % 4 = 2 ∧ d.toNat % 4 = 0 ∧ (d.toNat % 256 = 0x0C ∨ 0x18 ≤ d.toNat % 256) := by decide

theorem test_witness_IllFormedAccessesRaiseBadAcc :
    ∀ d ∈ [0x004#11, 0x104#11, 0x304#11, 0x201#11, 0x203#11, 0x40D#11],
      d.toNat / 256 % 4 ≠ 2 ∨ d.toNat % 4 ≠ 0 := by decide

theorem test_witness_FirstErrorKeepsItsCode : State.reset.err = false ∧ failed.err = true := by decide

theorem test_witness_ErrorsHaveNoOtherEffect :
    (∃ t, exec .decrypt State.reset = .next t ∧
      (t.err, t.eovf, t.errCode) ≠ (State.reset.err, State.reset.eovf, State.reset.errCode)) ∧
    ∀ w, Instr.decrypt ≠ .wrStatus w :=
  ⟨⟨_, rfl, by decide⟩, fun _ h => by cases h⟩

theorem test_witness_HostAccessesWriteOnlyTheirRegisters :
    (∃ t, exec (.wrKey 5) State.reset = .next t ∧ t.key ≠ State.reset.key) ∧
    (∃ t, exec (.wrBlkH 5) State.reset = .next t ∧ t.blkH ≠ State.reset.blkH) ∧
    (∃ t, exec (.wrBlkL 5) State.reset = .next t ∧ t.blkL ≠ State.reset.blkL) ∧
    (∃ t, exec (.wrCmd 3) keyed = .next t ∧ t.op ≠ keyed.op ∧ t.ksv ≠ keyed.ksv) ∧
    ∃ t, exec .rdBlkL (pending .keygen) = .next t ∧ t.draws ≠ (pending .keygen).draws :=
  ⟨⟨_, rfl, by decide⟩, ⟨_, rfl, by decide⟩, ⟨_, rfl, by decide⟩, ⟨_, rfl, by decide, by decide⟩, ⟨_, rfl, by decide⟩⟩

theorem test_witness_PendingOperationKeepsItsOperands :
    (pending .keygen).op ≠ .none ∧ ∃ t, exec (.wrKey 5) (pending .keygen) = .next t := ⟨by decide, _, rfl⟩

theorem test_witness_NoAccessRevealsKeyOrKeystream : ∃ t, exec .rdKey keyed = .next t := ⟨_, rfl⟩

/-- A state at the completion of each operation, for the statements about the completion step. -/
def completing (op : Op) : State := { pending op with schedule := [.complete] }

theorem test_witness_completions :
    (∀ op, (completing op).schedule = .complete :: []) ∧ ∀ op, (completing op).op = op := ⟨fun _ => rfl, fun _ => rfl⟩

/-- KS of zeros: every word is below 2^20. -/
theorem zero_words_lt (j : Fin 48) : State.reset.ks[j].toNat < 2 ^ 20 := by
  have h : State.reset.ks[j] = 0 := by simp [State.reset]
  rw [h]
  decide

/-- The completion of a DECRYPT whose words are below 2^20 goes on. -/
theorem decrypt_completes : ∃ t, step (completing .decrypt) = .next t := by
  obtain ⟨b, hb⟩ := Option.isSome_iff_exists.mp
    (decryptBlock_isSome Config.sbox zero_words_lt State.reset.blkH State.reset.blkL)
  refine ⟨(pending .decrypt).decryptDone b, ?_⟩
  show completeOp (pending .decrypt) = _
  exact completeOp_eq_next.mpr (.inr (.inr (.inl ⟨rfl, b, hb, rfl⟩)))

theorem test_witness_DecryptCompletionWritesThePlaintext :
    (completing .decrypt).schedule = .complete :: [] ∧ (completing .decrypt).op = .decrypt ∧
    (∃ b, decryptBlock Config.sbox (completing .decrypt).blkH (completing .decrypt).blkL (completing .decrypt).ks =
      some b) ∧
    decryptBlock Config.sbox 0 0 (Vector.replicate 48 0x00400000) = none :=
  ⟨rfl, rfl,
    Option.isSome_iff_exists.mp (decryptBlock_isSome Config.sbox zero_words_lt State.reset.blkH State.reset.blkL), rfl⟩

theorem test_witness_CompletionLeavesTheErrorRecord : ∃ t, step (completing .zeroize) = .next t := ⟨_, rfl⟩

theorem test_witness_ResetStepClearsTheUnit :
    ({ keyed with schedule := [.reset] } : State).schedule = .reset :: [] := rfl

theorem test_witness_KsvRisesOnlyWhenKeygenCompletes :
    (∃ t, step (completing .keygen) = .next t ∧ (completing .keygen).ksv = false ∧ t.ksv = true) ∧
    ∃ t, step (pending .keygen) = .next t ∧ (pending .keygen).ksv = false ∧ t.ksv = true :=
  ⟨⟨_, rfl, rfl, rfl⟩, ⟨_, rfl, rfl, rfl⟩⟩

/-- A state about to be reset whose KS differs from the free values that the reset draws. -/
def aboutToReset : State :=
  { State.reset with ks := (freeKeystream 0).set 0 (~~~(freeKeystream 0)[0]), schedule := [.reset] }

theorem test_witness_KeystreamIsWrittenByTheEngineOnly :
    (∃ t, step (completing .keygen) = .next t ∧ t.ks ≠ (completing .keygen).ks) ∧
    ∃ t, step aboutToReset = .next t ∧ t.ks ≠ aboutToReset.ks := by
  refine ⟨⟨_, rfl, ?_⟩, ⟨_, rfl, ?_⟩⟩
  · show keySchedule 0 ≠ Vector.replicate 48 0
    decide +kernel
  · show freeKeystream 0 ≠ (freeKeystream 0).set 0 (~~~(freeKeystream 0)[0])
    intro h
    have h0 := congrArg (fun ks : Keystream => ks[0].getLsbD 0) h
    simp at h0

/-- `keyed` is sound. -/
theorem keyed_sound : keyed.Sound where
  keystream := fun _ => ⟨0, rfl⟩
  keygenPending := fun h => by cases h
  zeroizePending := fun h => by cases h
  decryptPending := fun h => by cases h
  recorded := by decide
  overflow := fun h => by cases h

theorem test_witness_KeystreamWordsAreTwentyBits : keyed.Sound ∧ keyed.ksv = true := ⟨keyed_sound, rfl⟩

theorem test_witness_OperandsAreAPerBitMultiplexer :
    (0x80000000 : Word).getLsbD 31 = true ∧ (0x80000000 : Word).getLsbD 0 = false := by decide

theorem test_witness_RoundFunctionReadsOneEntryPerRegion :
    (0xFFFFF : Word).toNat < 2 ^ 20 ∧ (0 : Word).toNat < 2 ^ 20 := by decide

/-- Both sides of RoundFunctionFaultsOnWideSubkeysOnly occur. -/
theorem test_witness_RoundFunctionFaultsOnWideSubkeysOnly :
    roundF tId 0 0x00400000 0 0 = none ∧ roundF tId 0 0x003FFFFF 0x003FFFFF 0 ≠ none := by decide +kernel

theorem test_witness_PlaintextDependsOnBlockAndKeystreamAlone :
    (completing .decrypt).schedule = .complete :: [] ∧ (completing .decrypt).op = .decrypt ∧
    ({ completing .decrypt with key := 5 } : State).schedule = .complete :: [] ∧
    ({ completing .decrypt with key := 5 } : State).op = .decrypt ∧ ∃ t, step (completing .decrypt) = .next t :=
  ⟨rfl, rfl, rfl, rfl, decrypt_completes⟩

theorem test_witness_StepKeepsTheStateSound :
    ({ keyed with schedule := [.access ⟨0x600, 2⟩] } : State).Sound ∧
    ∃ t, step { keyed with schedule := [.access ⟨0x600, 2⟩] } = .next t :=
  ⟨⟨keyed_sound.1, keyed_sound.2, keyed_sound.3, keyed_sound.4, keyed_sound.5, keyed_sound.6⟩, _, rfl⟩

theorem test_witness_NoRunFromASoundStateStops : keyed.Sound := keyed_sound

/-- The schedule has two events: a DECRYPT and a read of STATUS before it completes. -/
theorem test_witness_EveryScheduleReachesItsEnd :
    ({ keyed with schedule := [.access ⟨0x600, 2⟩, .access ⟨0x204, 0⟩] } : State).Sound :=
  ⟨keyed_sound.1, keyed_sound.2, keyed_sound.3, keyed_sound.4, keyed_sound.5, keyed_sound.6⟩

theorem test_witness_UnitsDoNotDisturbEachOther :
    ∃ units', platformStep 1 [keyed, { keyed with schedule := [.access ⟨0x608, 5⟩] }] = .next units' := ⟨_, rfl⟩

theorem test_witness_ClockCyclesAreUntimedSteps :
    ∃ u', clockCycle ⟨false, some ⟨0x608, 5⟩, true⟩ ⟨pending .zeroize, 1, 1⟩ = .next u' := ⟨_, rfl⟩

theorem test_witness_LatencyCountsDownToCompletion :
    ((pending .zeroize).op ≠ .none ∧ 2 ≤ (TimedUnit.mk (pending .zeroize) 2 1).left) ∧
    (TimedUnit.mk (pending .zeroize) 1 1).left = 1 ∧
    ∃ u', clockCycle ⟨false, none, false⟩ ⟨pending .zeroize, 1, 1⟩ = .next u' := ⟨by decide, rfl, _, rfl⟩

end Sys2Proof.Tests
end

section
/-! PROOFS. The byte form and the register form of a block (00_scope.md R10; 20_memory.md R58, R59): BE32 loses nothing in
either direction, so DecryptBlock on 8 bytes is DecryptBlock on their two halves (42_block_decrypt.md R150, R155). -/

namespace Sys2Proof.Machine

/-! ### BE32 and its inverse -/

/-- R10. Neighbouring bytes of a word join to the stretch of the word that they cover. -/
theorem be32_be32bytes (w : Word) :
    be32 (be32bytes w)[0] (be32bytes w)[1] (be32bytes w)[2] (be32bytes w)[3] = w := by
  have top16 : w.extractLsb' 24 8 ++ w.extractLsb' 16 8 = w.extractLsb' 16 16 :=
    BitVec.extractLsb'_append_extractLsb'_eq_extractLsb' rfl
  have top24 : w.extractLsb' 16 16 ++ w.extractLsb' 8 8 = w.extractLsb' 8 24 :=
    BitVec.extractLsb'_append_extractLsb'_eq_extractLsb' rfl
  have all32 : w.extractLsb' 8 24 ++ w.extractLsb' 0 8 = w.extractLsb' 0 32 :=
    BitVec.extractLsb'_append_extractLsb'_eq_extractLsb' rfl
  change w.extractLsb' 24 8 ++ w.extractLsb' 16 8 ++ w.extractLsb' 8 8 ++ w.extractLsb' 0 8 = w
  rw [top16, top24, all32, BitVec.extractLsb'_eq_self]

/-- R10. A byte is reached by dropping the bytes joined after it, one at a time, until it is the last one. -/
theorem be32bytes_be32 (b0 b1 b2 b3 : Byte) : be32bytes (be32 b0 b1 b2 b3) = #v[b0, b1, b2, b3] := by
  simp [be32bytes, be32, BitVec.extractLsb'_append_eq_of_le (w := 8), BitVec.extractLsb'_append_eq_right (w' := 8)]

/-! ### Blocks of 8 bytes and pairs of halves -/

@[simp] theorem blockHalves_blockBytes (h : Word × Word) : blockHalves (blockBytes h) = h :=
  Prod.ext (be32_be32bytes h.1) (be32_be32bytes h.2)

@[simp] theorem blockBytes_blockHalves (b : Vector Byte 8) : blockBytes (blockHalves b) = b := by
  have bytes : blockBytes (blockHalves b) = #v[b[0], b[1], b[2], b[3]] ++ #v[b[4], b[5], b[6], b[7]] := by
    rw [blockBytes, blockHalves, be32bytes_be32, be32bytes_be32]
  rw [bytes]
  ext i hi
  interval_cases i <;> rfl

theorem blockBytes_eq_iff {h : Word × Word} {b : Vector Byte 8} : blockBytes h = b ↔ h = blockHalves b where
  mp hb := by rw [← hb, blockHalves_blockBytes]
  mpr hh := by rw [hh, blockBytes_blockHalves]

/-! ### The two forms of DecryptBlock -/

/-- R150, R155. The one pair of halves whose bytes are `output` is `output`'s own halves. -/
theorem decryptBytes_eq_some {sbox : SboxTable} {input output : Vector Byte 8} {ks : Keystream} :
    decryptBytes sbox input ks = some output ↔
      decryptBlock sbox (blockHalves input).1 (blockHalves input).2 ks = some (blockHalves output) := by
  simp only [decryptBytes, Option.map_eq_some_iff, blockBytes_eq_iff, exists_eq_right]

/-- Settles O52: blocks and halves determine each other, and so do the answers of the two forms. -/
theorem byteBlocksAgreeWithRegisterBlocks : Obligations.ByteBlocksAgreeWithRegisterBlocks :=
  ⟨blockHalves_blockBytes, blockBytes_blockHalves, fun _ _ _ _ => decryptBytes_eq_some⟩

end Sys2Proof.Machine
end

section
/-! PROOFS. What one step of the CORE can do to its state (10_state.md; 43_control.md R172, R185), the registers each access
writes, and the soundness invariant that every step keeps (R28, R115, R157, R171, R202). -/

namespace Sys2Proof.Machine

/-! ### The command port: what each word offered to it does (R172) -/

theorem execWrCmd_zero (s : State) : execWrCmd 0 s = execNop s := by
  by_cases h : s.op = .none <;> simp [execWrCmd, execNop, whenIdle, h]

theorem execWrCmd_one (s : State) : execWrCmd 1 s = execKeygen s := by
  by_cases h : s.op = .none <;> simp [execWrCmd, execKeygen, whenIdle, h]

theorem execWrCmd_two (s : State) : execWrCmd 2 s = execDecrypt s := by
  by_cases h : s.op = .none <;> simp [execWrCmd, execDecrypt, whenIdle, h]

theorem execWrCmd_three (s : State) : execWrCmd 3 s = execZeroize s := by
  by_cases h : s.op = .none <;> simp [execWrCmd, execZeroize, whenIdle, h]

/-- R82, R86: a word of 4 or more has RSV not 0 or an OPC above 3. -/
theorem illegal_fields_of_le {w : Word} (hw : 4 ≤ w.toNat) :
    w.extractLsb' 4 28 ≠ 0 ∨ 3#4 < w.extractLsb' 0 4 := by
  by_contra! legal
  obtain ⟨rsv, opc⟩ := legal
  have rsv_zero : w.toNat / 16 % 2 ^ 28 = 0 := by
    simpa [BitVec.extractLsb'_toNat, Nat.shiftRight_eq_div_pow] using congrArg BitVec.toNat rsv
  have opc_le : w.toNat % 16 ≤ 3 := by
    simpa [BitVec.le_def, BitVec.extractLsb'_toNat] using opc
  omega

theorem execWrCmd_illegal {w : Word} (hw : 4 ≤ w.toNat) (s : State) : execWrCmd w s = execIllegalCmd w s := by
  by_cases h : s.op = .none
  · simp only [execWrCmd, execIllegalCmd, whenIdle, h, ne_eq, not_true_eq_false, if_false, if_true,
      if_pos (illegal_fields_of_le hw)]
  · simp [execWrCmd, execIllegalCmd, whenIdle, h]

theorem command_word_cases (w : Word) : w = 0 ∨ w = 1 ∨ w = 2 ∨ w = 3 ∨ 4 ≤ w.toNat := by
  bv_omega

/-! ### Everything a host access can do -/

/-- The effects of a host access `i` in state `s`, one constructor for each kind: a recorded error (R202, R203), a returned value
and nothing else, and the one effect of each access that writes or draws something. -/
inductive HostEffect (s : State) : Instr → State → Prop
  | error (i : Instr) (code : ErrCode) (hcode : code ≠ .none) : HostEffect s i ((s.recordError code).returning 0)
  | value (i : Instr) (w : Word) : HostEffect s i (s.returning w)
  | clear (w : Word) : HostEffect s (.wrStatus w) (s.clearErrors.returning 0)
  | draw (i : Instr) (hi : i ∈ [Instr.rdBlkH, .rdBlkL]) (busy : s.op ≠ .none) :
      HostEffect s i ({ s with draws := s.draws + 1 }.returning (Config.drawBits 32 s.draws))
  | key (w : Word) (idle : s.op = .none) : HostEffect s (.wrKey w) ({ s with key := w }.returning 0)
  | blkH (w : Word) (idle : s.op = .none) : HostEffect s (.wrBlkH w) ({ s with blkH := w }.returning 0)
  | blkL (w : Word) (idle : s.op = .none) : HostEffect s (.wrBlkL w) ({ s with blkL := w }.returning 0)
  | keygen (i : Instr) (hi : i ∈ [Instr.keygen, .wrCmd 1]) (idle : s.op = .none) :
      HostEffect s i (s.acceptKeygen.returning 0)
  | decrypt (i : Instr) (hi : i ∈ [Instr.decrypt, .wrCmd 2]) (idle : s.op = .none) (keyed : s.ksv = true) :
      HostEffect s i (s.acceptDecrypt.returning 0)
  | zeroize (i : Instr) (hi : i ∈ [Instr.zeroize, .wrCmd 3]) (idle : s.op = .none) :
      HostEffect s i (s.acceptZeroize.returning 0)

section
variable {s t : State} {i : Instr}

theorem hostEffect_of_whenIdle {k : Result} (h : whenIdle s k = .next t)
    (hk : s.op = .none → k = .next t → HostEffect s i t) : HostEffect s i t := by
  obtain ⟨idle, hkt⟩ | ⟨-, rfl⟩ := whenIdle_eq_next.mp h
  · exact hk idle hkt
  · exact .error i .busy nofun

theorem hostEffect_of_readBlock {reg : Word} (hi : i ∈ [Instr.rdBlkH, .rdBlkL]) (h : readBlock s reg = .next t) :
    HostEffect s i t := by
  obtain ⟨-, rfl⟩ | ⟨busy, rfl⟩ := readBlock_eq_next.mp h
  · exact .value i reg
  · exact .draw i hi busy

theorem hostEffect_of_execNop (h : execNop s = .next t) : HostEffect s i t :=
  hostEffect_of_whenIdle h fun _ hk => by cases hk; exact .value i 0

theorem hostEffect_of_execKeygen (hi : i ∈ [Instr.keygen, .wrCmd 1]) (h : execKeygen s = .next t) : HostEffect s i t :=
  hostEffect_of_whenIdle h fun idle hk => by cases hk; exact .keygen i hi idle

theorem hostEffect_of_execDecrypt (hi : i ∈ [Instr.decrypt, .wrCmd 2]) (h : execDecrypt s = .next t) :
    HostEffect s i t :=
  hostEffect_of_whenIdle h fun idle hk => by
    obtain ⟨keyed, rfl⟩ | ⟨-, rfl⟩ := offerDecrypt_eq_next.mp hk
    · exact .decrypt i hi idle keyed
    · exact .error i .noKey nofun

theorem hostEffect_of_execZeroize (hi : i ∈ [Instr.zeroize, .wrCmd 3]) (h : execZeroize s = .next t) :
    HostEffect s i t :=
  hostEffect_of_whenIdle h fun idle hk => by cases hk; exact .zeroize i hi idle

theorem hostEffect_of_execIllegalCmd (w : Word) (h : execIllegalCmd w s = .next t) : HostEffect s i t :=
  hostEffect_of_whenIdle h fun _ hk => by cases hk; exact .error i .badCmd nofun

theorem hostEffect_of_execWrCmd {w : Word} (h : execWrCmd w s = .next t) : HostEffect s (.wrCmd w) t := by
  obtain rfl | rfl | rfl | rfl | illegal := command_word_cases w
  · exact hostEffect_of_execNop (execWrCmd_zero s ▸ h)
  · exact hostEffect_of_execKeygen (by simp) (execWrCmd_one s ▸ h)
  · exact hostEffect_of_execDecrypt (by simp) (execWrCmd_two s ▸ h)
  · exact hostEffect_of_execZeroize (by simp) (execWrCmd_three s ▸ h)
  · exact hostEffect_of_execIllegalCmd w (execWrCmd_illegal illegal s ▸ h)

theorem hostEffect_of_execWrStatus {w : Word} (h : execWrStatus w s = .next t) : HostEffect s (.wrStatus w) t := by
  unfold execWrStatus at h
  split at h
  · cases h; exact .clear w
  · cases h; exact .value _ 0

/-- A host access that goes on has one of the effects listed. -/
theorem exec_effect (h : exec i s = .next t) : HostEffect s i t := by
  cases i with
  | nop => exact hostEffect_of_execNop h
  | keygen => exact hostEffect_of_execKeygen (by simp) h
  | decrypt => exact hostEffect_of_execDecrypt (by simp) h
  | zeroize => exact hostEffect_of_execZeroize (by simp) h
  | illegalCmd w => exact hostEffect_of_execIllegalCmd w h
  | wrCmd w => exact hostEffect_of_execWrCmd h
  | rdCmd => cases h; exact .value _ _
  | rdStatus => cases h; exact .value _ _
  | wrStatus w => exact hostEffect_of_execWrStatus h
  | rdKey => cases h; exact .value _ _
  | wrKey w => exact hostEffect_of_whenIdle h fun idle hk => by cases hk; exact .key w idle
  | rdBlkH => exact hostEffect_of_readBlock (by simp) h
  | rdBlkL => exact hostEffect_of_readBlock (by simp) h
  | wrBlkH w => exact hostEffect_of_whenIdle h fun idle hk => by cases hk; exact .blkH w idle
  | wrBlkL w => exact hostEffect_of_whenIdle h fun idle hk => by cases hk; exact .blkL w idle
  | rsvAccess a off => cases h; exact .error _ .badAddr nofun
  | badAccess a sz off => cases h; exact .error _ .badAcc nofun

theorem hostAccess_effect {a : Transaction} (h : hostAccess a s = .next t) :
    HostEffect s (decode (.access a)) t :=
  exec_effect h

/-! ### Which accesses write each register -/

/-- R33, R35 to R37: no host access writes what belongs to the engine; the schedule is the environment's (log 1). -/
theorem HostEffect.engine_kept (h : HostEffect s i t) :
    t.ks = s.ks ∧ t.v = s.v ∧ t.l = s.l ∧ t.r = s.r ∧ t.counters = s.counters ∧ t.schedule = s.schedule := by
  cases h <;> exact ⟨rfl, rfl, rfl, rfl, rfl, rfl⟩

theorem HostEffect.key_written (h : HostEffect s i t) (changed : t.key ≠ s.key) : i = .wrKey t.key := by
  cases h with
  | key w => rfl
  | _ => exact absurd rfl changed

theorem HostEffect.blkH_written (h : HostEffect s i t) (changed : t.blkH ≠ s.blkH) : i = .wrBlkH t.blkH := by
  cases h with
  | blkH w => rfl
  | _ => exact absurd rfl changed

theorem HostEffect.blkL_written (h : HostEffect s i t) (changed : t.blkL ≠ s.blkL) : i = .wrBlkL t.blkL := by
  cases h with
  | blkL w => rfl
  | _ => exact absurd rfl changed

theorem HostEffect.op_written (h : HostEffect s i t) (changed : t.op ≠ s.op) :
    s.op = .none ∧ i ∈ [Instr.keygen, .decrypt, .zeroize, .wrCmd 1, .wrCmd 2, .wrCmd 3] := by
  cases h with
  | keygen _ hi idle => exact ⟨idle, by grind⟩
  | decrypt _ hi idle => exact ⟨idle, by grind⟩
  | zeroize _ hi idle => exact ⟨idle, by grind⟩
  | _ => exact absurd rfl changed

/-- R39: a host access only ever clears KSV. -/
theorem HostEffect.ksv_written (h : HostEffect s i t) (changed : t.ksv ≠ s.ksv) :
    t.ksv = false ∧ i ∈ [Instr.keygen, .zeroize, .wrCmd 1, .wrCmd 3] := by
  cases h with
  | keygen _ hi => exact ⟨rfl, by grind⟩
  | zeroize _ hi => exact ⟨rfl, by grind⟩
  | _ => exact absurd rfl changed

theorem HostEffect.draws_written (h : HostEffect s i t) (changed : t.draws ≠ s.draws) :
    s.op ≠ .none ∧ i ∈ [Instr.rdBlkH, .rdBlkL] := by
  cases h with
  | draw _ hi busy => exact ⟨busy, hi⟩
  | _ => exact absurd rfl changed

/-! ### Everything a step can do -/

/-- The state with its next event taken off the schedule (log 1). -/
def State.popEvent (s : State) : State := { s with schedule := s.schedule.tail }

@[simp] theorem State.popEvent_key (s : State) : s.popEvent.key = s.key := rfl
@[simp] theorem State.popEvent_ksv (s : State) : s.popEvent.ksv = s.ksv := rfl
@[simp] theorem State.popEvent_op (s : State) : s.popEvent.op = s.op := rfl
@[simp] theorem State.popEvent_ks (s : State) : s.popEvent.ks = s.ks := rfl

theorem State.popEvent_of_nil (h : s.schedule = []) : s.popEvent = s := by
  cases s
  cases h
  rfl

/-- A step is a completion (also at an empty schedule, log 2), a host access, or a reset (R185). -/
theorem step_cases (h : step s = .next t) :
    ((s.schedule = [] ∨ s.schedule.head? = some .complete) ∧ completeOp s.popEvent = .next t) ∨
    (∃ a, s.schedule.head? = some (.access a) ∧ hostAccess a s.popEvent = .next t) ∨
    (s.schedule.head? = some .reset ∧ t = s.popEvent.resetStep) := by
  cases hs : s.schedule with
  | nil =>
    rw [step, takeStep_nil hs] at h
    exact .inl ⟨.inl rfl, by rwa [State.popEvent_of_nil hs]⟩
  | cons e rest =>
    have pop : ({ s with schedule := rest } : State) = s.popEvent := by simp [State.popEvent, hs]
    rw [step, takeStep_cons hs, pop] at h
    cases e with
    | access a => exact .inr (.inl ⟨a, rfl, h⟩)
    | complete => exact .inl ⟨.inr rfl, h⟩
    | reset => cases h; exact .inr (.inr ⟨rfl, rfl⟩)

/-! ### The soundness invariant -/

/-- With no operation pending only the claim on KS and the error record are left to show. -/
theorem State.Sound.of_idle (idle : s.op = .none) (keystream : s.ksv = true → IsKeystream s.ks)
    (recorded : s.err = true ↔ s.errCode ≠ .none) (overflow : s.eovf = true → s.err = true) : s.Sound where
  keystream := keystream
  keygenPending h := by cases idle.symm.trans h
  zeroizePending h := by cases idle.symm.trans h
  decryptPending h := by cases idle.symm.trans h
  recorded := recorded
  overflow := overflow

theorem State.Sound.popEvent (h : s.Sound) : s.popEvent.Sound := { h with }

theorem State.Sound.returning (h : s.Sound) (w : Word) : (s.returning w).Sound := { h with }

/-- R202: the first error puts its own code beside ERR, a later one keeps the code that stands there. -/
theorem State.Sound.recordError (h : s.Sound) {code : ErrCode} (hcode : code ≠ .none) : (s.recordError code).Sound :=
  { h with
    recorded := by
      cases herr : s.err with
      | false => simp [herr, hcode]
      | true => simp [herr, h.recorded.mp herr]
    overflow := fun _ => rfl }

theorem State.Sound.clearErrors (h : s.Sound) : s.clearErrors.Sound :=
  { h with
    recorded := by simp
    overflow := nofun }

/-- R115: KSV falls as KEYGEN becomes pending, so nothing is claimed of KS meanwhile. -/
theorem State.Sound.acceptKeygen (h : s.Sound) : s.acceptKeygen.Sound :=
  { h with
    keystream := nofun
    keygenPending := fun _ => rfl
    zeroizePending := nofun
    decryptPending := nofun }

theorem State.Sound.acceptDecrypt (h : s.Sound) (keyed : s.ksv = true) : s.acceptDecrypt.Sound :=
  { h with
    keygenPending := nofun
    zeroizePending := nofun
    decryptPending := fun _ => keyed }

theorem State.Sound.acceptZeroize (h : s.Sound) : s.acceptZeroize.Sound :=
  { h with
    keystream := nofun
    keygenPending := nofun
    zeroizePending := fun _ => rfl
    decryptPending := nofun }

/-- No host access breaks soundness: the writes of KEY, BLK_H and BLK_L and the draws touch nothing it speaks of. -/
theorem HostEffect.sound (he : HostEffect s i t) (h : s.Sound) : t.Sound := by
  cases he with
  | error _ code hcode => exact (h.recordError hcode).returning 0
  | value _ w => exact h.returning w
  | clear w => exact h.clearErrors.returning 0
  | draw => exact { h with }
  | key w => exact { h with }
  | blkH w => exact { h with }
  | blkL w => exact { h with }
  | keygen => exact h.acceptKeygen.returning 0
  | decrypt _ _ _ keyed => exact (h.acceptDecrypt keyed).returning 0
  | zeroize => exact h.acceptZeroize.returning 0

/-- KEYGEN makes KSV = 1 true, DECRYPT leaves KS alone, and ZEROIZE erases KS while KSV = 0. -/
theorem completeOp_sound (h : s.Sound) (hc : completeOp s = .next t) : t.Sound := by
  obtain ⟨-, rfl⟩ | ⟨-, rfl⟩ | ⟨-, b, -, rfl⟩ | ⟨hop, rfl⟩ := completeOp_eq_next.mp hc
  · exact h
  · exact .of_idle rfl (fun _ => ⟨s.key, rfl⟩) h.recorded h.overflow
  · exact .of_idle rfl h.keystream h.recorded h.overflow
  · exact .of_idle rfl (fun hksv => by simp [h.zeroizePending hop] at hksv) h.recorded h.overflow

theorem resetStep_sound (s : State) : s.resetStep.Sound :=
  .of_idle rfl nofun (by simp) nofun

/-! ### KSV and KS in a completion (R39, R173) -/

theorem completeOp_ksv_rise (hc : completeOp s = .next t) (low : s.ksv = false) (high : t.ksv = true) :
    s.op = .keygen ∧ t = s.keygenDone := by
  obtain ⟨-, rfl⟩ | done | ⟨-, b, -, rfl⟩ | ⟨-, rfl⟩ := completeOp_eq_next.mp hc
  · simp [low] at high
  · exact done
  · simp [low] at high
  · simp [low] at high

theorem completeOp_ks_written (hc : completeOp s = .next t) (changed : t.ks ≠ s.ks) :
    s.op = .keygen ∨ s.op = .zeroize := by
  obtain ⟨-, rfl⟩ | ⟨hop, -⟩ | ⟨-, b, -, rfl⟩ | ⟨hop, -⟩ := completeOp_eq_next.mp hc
  · exact absurd rfl changed
  · exact .inl hop
  · exact absurd rfl changed
  · exact .inr hop

end

/-! ### The statements -/

/-- Settles O54: each kind of step keeps the invariant, a reset even establishes it. -/
theorem stepKeepsTheStateSound : Obligations.StepKeepsTheStateSound := by
  intro s t h hstep
  obtain ⟨-, hc⟩ | ⟨a, -, ha⟩ | ⟨-, rfl⟩ := step_cases hstep
  · exact completeOp_sound h.popEvent hc
  · exact (hostAccess_effect ha).sound h.popEvent
  · exact resetStep_sound s.popEvent

/-- Settles O28: register by register, from the list of effects of a host access. -/
theorem hostAccessesWriteOnlyTheirRegisters : Obligations.HostAccessesWriteOnlyTheirRegisters := by
  intro i s t h
  have he := exec_effect h
  exact ⟨he.engine_kept, he.key_written, he.blkH_written, he.blkL_written, he.op_written, he.ksv_written,
    he.draws_written⟩

/-- Settles O37: a host access and a reset only lower KSV, so the step is a completion, and it is KEYGEN's. -/
theorem ksvRisesOnlyWhenKeygenCompletes : Obligations.KsvRisesOnlyWhenKeygenCompletes := by
  intro s t hstep low high
  obtain ⟨hsched, hc⟩ | ⟨a, -, ha⟩ | ⟨-, rfl⟩ := step_cases hstep
  · obtain ⟨hop, rfl⟩ := completeOp_ksv_rise hc low high
    exact ⟨hop, hsched, rfl, rfl⟩
  · have fallen := (hostAccess_effect ha).ksv_written (by simp [low, high])
    simp [high] at fallen
  · simp at high

/-- Settles O38: no host access writes KS, so the step is a completion that writes it, or a reset. -/
theorem keystreamIsWrittenByTheEngineOnly : Obligations.KeystreamIsWrittenByTheEngineOnly := by
  intro s t hstep changed
  obtain ⟨hsched, hc⟩ | ⟨a, -, ha⟩ | ⟨hreset, -⟩ := step_cases hstep
  · have pending := completeOp_ks_written hc changed
    exact .inl ⟨pending, hsched⟩
  · obtain ⟨kept, -⟩ := (hostAccess_effect ha).engine_kept
    exact absurd kept changed
  · exact .inr hreset

/-- Settles O36: every field has its stated value by definition of the reset state, and a STATUS word of zero fields is 0. -/
theorem resetStateHasTheStatedValues : Obligations.ResetStateHasTheStatedValues :=
  ⟨rfl, rfl, rfl, rfl, rfl, rfl, rfl, rfl, rfl⟩

/-- Settles O55: after reset nothing is pending, nothing is claimed of KS and no error stands. -/
theorem resetStateIsSound : Obligations.ResetStateIsSound :=
  .of_idle rfl nofun (by decide) nofun

end Sys2Proof.Machine
end

section
/-! PROOFS. The fields of an access descriptor as numbers (30_encoding.md R81), and which transactions they make ill-formed or
reserved (20_memory.md R52, R53). -/

namespace Sys2Proof

/-! ### The fields of a descriptor as numbers (R81) -/

theorem descSize_toNat (d : Descriptor) : (descSize d).toNat = d.toNat / 256 % 4 := by
  simp [descSize, BitVec.extractLsb'_toNat, Nat.shiftRight_eq_div_pow]

theorem descOffset_toNat (d : Descriptor) : (descOffset d).toNat = d.toNat % 256 := by
  simp [descOffset, BitVec.extractLsb'_toNat]

theorem descSize_eq_two_iff (d : Descriptor) : descSize d = 2 ↔ d.toNat / 256 % 4 = 2 := by
  rw [← BitVec.toNat_inj, descSize_toNat]
  rfl

/-- R52: OFF is the low byte of the descriptor, so OFF is a multiple of 4 when the descriptor is one. -/
theorem descOffset_low_eq_zero_iff (d : Descriptor) : (descOffset d).extractLsb' 0 2 = 0 ↔ d.toNat % 4 = 0 := by
  have low : ((descOffset d).extractLsb' 0 2).toNat = d.toNat % 4 := by
    simp [BitVec.extractLsb'_toNat, descOffset_toNat, Nat.mod_mod_of_dvd]
  rw [← BitVec.toNat_inj, low]
  rfl

/-! ### What the size and the offset select (R52, R53, R84) -/

/-- R52, R84: an ill-formed size or offset is told before the register is selected. -/
theorem decodeAccess_eq (t : Transaction) :
    decodeAccess t =
      if t.desc.toNat / 256 % 4 ≠ 2 ∨ t.desc.toNat % 4 ≠ 0 then
        .badAccess (txnAccess t) (descSize t.desc) (descOffset t.desc)
      else selectAccess (txnAccess t) (descOffset t.desc) := by
  simp only [decodeAccess, ne_eq, descSize_eq_two_iff, descOffset_low_eq_zero_iff]

/-- The offsets of the five registers of the window (R53). -/
def registerOffsets : List Byte := [0x00, 0x04, 0x08, 0x10, 0x14]

/-- R84: off the five registers the access is reserved, read or write. -/
theorem selectAccess_of_notMem {off : Byte} (h : off ∉ registerOffsets) (a : Access) :
    selectAccess a off = .rsvAccess a off := by
  simp only [registerOffsets, List.mem_cons, List.not_mem_nil, or_false, not_or] at h
  obtain ⟨cmd, status, key, blkH, blkL⟩ := h
  cases a with
  | read => simp only [selectAccess, cmd, status, key, blkH, blkL, if_false]
  | write w => simp only [selectAccess, cmd, status, key, blkH, blkL, if_false]

/-- R84: at each register's offset the access is that register's, so it is not a reserved one. -/
theorem selectAccess_ne_rsvAccess {off : Byte} (h : off ∈ registerOffsets) (a b : Access) (o : Byte) :
    selectAccess a off ≠ .rsvAccess b o := by
  simp only [registerOffsets, List.mem_cons, List.not_mem_nil, or_false] at h
  obtain rfl | rfl | rfl | rfl | rfl := h <;> cases a <;> exact nofun

theorem selectAccess_isRsvAccess_iff (a : Access) (off : Byte) :
    (∃ b o, selectAccess a off = .rsvAccess b o) ↔ off ∉ registerOffsets where
  mp := fun ⟨b, o, h⟩ hmem => selectAccess_ne_rsvAccess hmem a b o h
  mpr h := ⟨a, off, selectAccess_of_notMem h a⟩

/-- R84: a selected access is a register's or a reserved one, never an ill-formed one. -/
theorem selectAccess_ne_badAccess (a b : Access) (off o : Byte) (sz : BitVec 2) :
    selectAccess a off ≠ .badAccess b sz o := by
  cases a with
  | read => unfold selectAccess; split_ifs <;> exact nofun
  | write w => unfold selectAccess; split_ifs <;> exact nofun

/-- R53: among the multiples of 4 the reserved offsets are those of no register: 0x0C, and 0x18 and above. -/
theorem notMem_registerOffsets_iff {off : Byte} (aligned : off.toNat % 4 = 0) :
    off ∉ registerOffsets ↔ off.toNat = 0x0C ∨ 0x18 ≤ off.toNat := by
  simp only [registerOffsets, List.mem_cons, List.not_mem_nil, or_false]
  bv_omega

/-! ### Ill-formed and reserved transactions -/

theorem decodeAccess_isBadAccess_iff (t : Transaction) :
    (∃ a sz off, decodeAccess t = .badAccess a sz off) ↔ t.desc.toNat / 256 % 4 ≠ 2 ∨ t.desc.toNat % 4 ≠ 0 := by
  rw [decodeAccess_eq]
  split_ifs with ill
  · exact iff_of_true ⟨_, _, _, rfl⟩ ill
  · exact iff_of_false (fun ⟨a, sz, off, h⟩ => selectAccess_ne_badAccess _ a _ off sz h) ill

theorem decodeAccess_isRsvAccess_iff (t : Transaction) :
    (∃ a off, decodeAccess t = .rsvAccess a off) ↔
      t.desc.toNat / 256 % 4 = 2 ∧ t.desc.toNat % 4 = 0 ∧
        (t.desc.toNat % 256 = 0x0C ∨ 0x18 ≤ t.desc.toNat % 256) := by
  rw [decodeAccess_eq]
  split_ifs with ill
  · exact iff_of_false nofun (by omega)
  · obtain ⟨size, aligned⟩ : t.desc.toNat / 256 % 4 = 2 ∧ t.desc.toNat % 4 = 0 := by omega
    have offset_aligned : (descOffset t.desc).toNat % 4 = 0 := by rw [descOffset_toNat]; omega
    rw [selectAccess_isRsvAccess_iff, notMem_registerOffsets_iff offset_aligned, descOffset_toNat]
    simp only [size, aligned, true_and]

/-- Settles O5: the ill-formed test comes first, and what passes it is reserved exactly off the five registers. -/
theorem badAndReservedDescriptorsAreTold : Obligations.BadAndReservedDescriptorsAreTold :=
  fun t => ⟨(decodeAccess_isBadAccess_iff t).symm, (decodeAccess_isRsvAccess_iff t).symm⟩

end Sys2Proof
end

section
/-! PROOFS. What a pending operation works on, while it is pending (20_memory.md R66; 43_control.md R173). -/

namespace Sys2Proof.Machine

/-- R173: the effects that write OP, KEY, BLK_H, BLK_L or KSV need an idle unit, and no effect writes KS. -/
theorem HostEffect.operands_kept {s t : State} {i : Instr} (h : HostEffect s i t) (busy : s.op ≠ .none) :
    t.op = s.op ∧ t.key = s.key ∧ t.blkH = s.blkH ∧ t.blkL = s.blkL ∧ t.ks = s.ks ∧ t.ksv = s.ksv := by
  cases h with
  | error | value | clear | draw => exact ⟨rfl, rfl, rfl, rfl, rfl, rfl⟩
  | key _ idle | blkH _ idle | blkL _ idle => exact absurd idle busy
  | keygen _ _ idle | decrypt _ _ idle | zeroize _ _ idle => exact absurd idle busy

/-- Settles O29: every effect open to a host access in a busy state leaves the operands alone. -/
theorem pendingOperationKeepsItsOperands : Obligations.PendingOperationKeepsItsOperands :=
  fun _ _ _ busy h => (exec_effect h).operands_kept busy

end Sys2Proof.Machine
end

section
/-! PROOFS. What a command word decodes to (30_encoding.md R82, R85, R86), the fields of a descriptor put together and taken apart
(R81), and the two round trips between instructions and their encodings (R80, R84, R88). -/

namespace Sys2Proof

/-! ### What a command word decodes to -/

/-- R86: a word of 4 or more is illegal, by its RSV or by its OPC. -/
theorem decodeCommand_of_le {w : Word} (hw : 4 ≤ w.toNat) : decodeCommand w = .illegalCmd w := by
  obtain rsv | opc := Machine.illegal_fields_of_le hw
  · exact if_pos rsv
  · obtain ⟨nop, keygen, decrypt, zeroize⟩ : cmdOpc w ≠ 0 ∧ cmdOpc w ≠ 1 ∧ cmdOpc w ≠ 2 ∧ cmdOpc w ≠ 3 := by
      unfold cmdOpc
      bv_omega
    simp only [decodeCommand, nop, keygen, decrypt, zeroize, if_false, ite_self]

/-- R85, R86: the decoded command, word by word. -/
theorem decodeCommand_eq (w : Word) :
    decodeCommand w =
      if w = 0 then .nop else if w = 1 then .keygen else if w = 2 then .decrypt else if w = 3 then .zeroize
      else .illegalCmd w := by
  obtain rfl | rfl | rfl | rfl | illegal := Machine.command_word_cases w
  · rfl
  · rfl
  · rfl
  · rfl
  · obtain ⟨nop, keygen, decrypt, zeroize⟩ : w ≠ 0 ∧ w ≠ 1 ∧ w ≠ 2 ∧ w ≠ 3 := by bv_omega
    simp only [decodeCommand_of_le illegal, nop, keygen, decrypt, zeroize, if_false]

/-- R82: the words 0 to 3 are legal, so one that is not is 4 or more. -/
theorem le_of_not_legalCommandWord {w : Word} (h : legalCommandWord w = false) : 4 ≤ w.toNat := by
  obtain rfl | rfl | rfl | rfl | illegal := Machine.command_word_cases w
  · exact absurd h (by decide)
  · exact absurd h (by decide)
  · exact absurd h (by decide)
  · exact absurd h (by decide)
  · exact illegal

/-- R88: a command's encoding is the word it was decoded from. -/
theorem encode_decodeCommand (w : Word) : encode (decodeCommand w) = .command w := by
  obtain rfl | rfl | rfl | rfl | illegal := Machine.command_word_cases w
  · rfl
  · rfl
  · rfl
  · rfl
  · rw [decodeCommand_of_le illegal]
    rfl

/-- Settles O4: the decoder's chain over RSV and OPC is the chain over the whole word. -/
theorem commandWordsDecodeToTheirCommands : Obligations.CommandWordsDecodeToTheirCommands :=
  decodeCommand_eq

/-! ### Building a descriptor and reading its fields (R81) -/

@[simp] theorem descWrite_mkDescriptor (write : Bool) (sz : BitVec 2) (off : Byte) :
    descWrite (mkDescriptor write sz off) = write := by
  simp only [descWrite, mkDescriptor, BitVec.getLsbD_append]
  simp

@[simp] theorem descSize_mkDescriptor (write : Bool) (sz : BitVec 2) (off : Byte) :
    descSize (mkDescriptor write sz off) = sz := by
  simp [descSize, mkDescriptor, BitVec.extractLsb'_append_eq_of_le (w := 8),
    BitVec.extractLsb'_append_eq_right (w' := 2)]

@[simp] theorem descOffset_mkDescriptor (write : Bool) (sz : BitVec 2) (off : Byte) :
    descOffset (mkDescriptor write sz off) = off := by
  simp [descOffset, mkDescriptor, BitVec.extractLsb'_append_eq_right (w' := 8)]

/-- R81: W, SZ and OFF are all there is of a descriptor. -/
theorem mkDescriptor_fields (d : Descriptor) : mkDescriptor (descWrite d) (descSize d) (descOffset d) = d := by
  have w_bit : BitVec.ofBool (descWrite d) = d.extractLsb' 10 1 := by
    ext i hi
    obtain rfl : i = 0 := by omega
    simp [descWrite]
  have top3 : d.extractLsb' 10 1 ++ d.extractLsb' 8 2 = d.extractLsb' 8 3 :=
    BitVec.extractLsb'_append_extractLsb'_eq_extractLsb' rfl
  have all11 : d.extractLsb' 8 3 ++ d.extractLsb' 0 8 = d.extractLsb' 0 11 :=
    BitVec.extractLsb'_append_extractLsb'_eq_extractLsb' rfl
  change BitVec.ofBool (descWrite d) ++ d.extractLsb' 8 2 ++ d.extractLsb' 0 8 = d
  rw [w_bit, top3, all11, BitVec.extractLsb'_eq_self]

/-! ### Transactions and their accesses -/

@[simp] theorem descSize_mkTransaction (a : Access) (sz : BitVec 2) (off : Byte) :
    descSize (mkTransaction a sz off).desc = sz := by
  cases a <;> exact descSize_mkDescriptor _ sz off

@[simp] theorem descOffset_mkTransaction (a : Access) (sz : BitVec 2) (off : Byte) :
    descOffset (mkTransaction a sz off).desc = off := by
  cases a <;> exact descOffset_mkDescriptor _ sz off

@[simp] theorem txnAccess_mkTransaction (a : Access) (sz : BitVec 2) (off : Byte) :
    txnAccess (mkTransaction a sz off) = a := by
  cases a <;> simp [txnAccess, mkTransaction]

/-- The transaction with the access, SZ and OFF of another: the data word of a read is 0 in it (log 13). -/
theorem mkTransaction_fields (t : Transaction) :
    mkTransaction (txnAccess t) (descSize t.desc) (descOffset t.desc) =
      ⟨t.desc, if descWrite t.desc then t.data else 0⟩ := by
  have fields := mkDescriptor_fields t.desc
  cases hw : descWrite t.desc with
  | false =>
    rw [hw] at fields
    simp [txnAccess, hw, mkTransaction, fields]
  | true =>
    rw [hw] at fields
    simp [txnAccess, hw, mkTransaction, fields]

/-! ### Ill-formed accesses and reserved offsets (R52, R53) -/

theorem offset_low_eq_zero_iff (off : Byte) : off.extractLsb' 0 2 = 0 ↔ off.toNat % 4 = 0 := by
  simp [← BitVec.toNat_inj, BitVec.extractLsb'_toNat]

theorem illFormedAccess_eq_false_iff {sz : BitVec 2} {off : Byte} :
    illFormedAccess sz off = false ↔ sz = 2 ∧ off.toNat % 4 = 0 := by
  simp only [illFormedAccess, Bool.or_eq_false_iff, bne_eq_false_iff_eq, offset_low_eq_zero_iff]
  rfl

theorem mem_registerOffsets {off : Byte} :
    off ∈ registerOffsets ↔ off = 0x00 ∨ off = 0x04 ∨ off = 0x08 ∨ off = 0x10 ∨ off = 0x14 := by
  simp [registerOffsets]

/-- R53: an offset is reserved exactly when a 4-byte access to it is well-formed and it is no register's. -/
theorem reservedOffset_iff {off : Byte} :
    reservedOffset off = true ↔ illFormedAccess 2 off = false ∧ off ∉ registerOffsets := by
  simp only [reservedOffset, Bool.or_eq_true, Bool.and_eq_true, beq_iff_eq, decide_eq_true_eq, offset_low_eq_zero_iff,
    illFormedAccess_eq_false_iff, mem_registerOffsets, true_and]
  bv_omega

/-- R52, R84: the ill-formed access is told first, by the check that well-formedness makes. -/
theorem decodeAccess_eq_illFormed (t : Transaction) :
    decodeAccess t =
      if illFormedAccess (descSize t.desc) (descOffset t.desc) then
        .badAccess (txnAccess t) (descSize t.desc) (descOffset t.desc)
      else selectAccess (txnAccess t) (descOffset t.desc) := by
  simp [decodeAccess, illFormedAccess]

/-! ### Encoding what was decoded (R88) -/

/-- R84: each access the table selects is encoded by its own size-4 transaction. -/
theorem encode_selectAccess (a : Access) (off : Byte) :
    encode (selectAccess a off) = .access (mkTransaction a 2 off) := by
  by_cases h : off ∈ registerOffsets
  · obtain rfl | rfl | rfl | rfl | rfl := mem_registerOffsets.mp h <;> cases a <;> rfl
  · rw [selectAccess_of_notMem h]
    rfl

/-- R88: ill-formed or not, a decoded access is encoded by the fields it was decoded from. -/
theorem encode_decodeAccess (t : Transaction) :
    encode (decodeAccess t) = .access (mkTransaction (txnAccess t) (descSize t.desc) (descOffset t.desc)) := by
  rw [decodeAccess_eq_illFormed]
  split_ifs with ill
  · rfl
  · obtain ⟨size, -⟩ := illFormedAccess_eq_false_iff.mp (Bool.eq_false_of_not_eq_true ill)
    rw [encode_selectAccess, size]

/-- Settles O2: W, SZ and OFF give a descriptor back, and the data word with them where it is a write's or 0. -/
theorem encodeGivesBackEveryDecodedWord : Obligations.EncodeGivesBackEveryDecodedWord := by
  refine ⟨encode_decodeCommand, fun t ht => ?_⟩
  have data_kept : (if descWrite t.desc then t.data else 0) = t.data := by
    obtain write | zero := ht
    · exact if_pos write
    · rw [zero, ite_self]
  rw [decode, encode_decodeAccess, mkTransaction_fields, data_kept]

/-! ### Decoding what was encoded (R80, R84, R85) -/

/-- R52, R84: an access of size SZ at OFF is ill-formed, or what OFF selects. -/
theorem decodeAccess_mkTransaction (a : Access) (sz : BitVec 2) (off : Byte) :
    decodeAccess (mkTransaction a sz off) =
      if illFormedAccess sz off then .badAccess a sz off else selectAccess a off := by
  simp [decodeAccess_eq_illFormed]

/-- R84: at a multiple of 4 the selected access is read back. -/
theorem decode_encode_selectAccess (a : Access) {off : Byte} (aligned : illFormedAccess 2 off = false) :
    decode (encode (selectAccess a off)) = selectAccess a off := by
  rw [encode_selectAccess, decode, decodeAccess_mkTransaction, aligned]
  rfl

/-- Settles O1: an illegal word is one of 4 or more; the register accesses are what their offsets select; a reserved access is
selected off the registers; an ill-formed one is told first. -/
theorem decodeReadsBackEveryEncoding : Obligations.DecodeReadsBackEveryEncoding := by
  intro i wf
  cases i with
  | nop | keygen | decrypt | zeroize => rfl
  | illegalCmd w => exact decodeCommand_of_le (le_of_not_legalCommandWord ((Bool.not_eq_true' _).mp wf))
  | wrCmd w => exact decode_encode_selectAccess (.write w) (off := 0x00) rfl
  | rdCmd => exact decode_encode_selectAccess .read (off := 0x00) rfl
  | rdStatus => exact decode_encode_selectAccess .read (off := 0x04) rfl
  | wrStatus w => exact decode_encode_selectAccess (.write w) (off := 0x04) rfl
  | rdKey => exact decode_encode_selectAccess .read (off := 0x08) rfl
  | wrKey w => exact decode_encode_selectAccess (.write w) (off := 0x08) rfl
  | rdBlkH => exact decode_encode_selectAccess .read (off := 0x10) rfl
  | rdBlkL => exact decode_encode_selectAccess .read (off := 0x14) rfl
  | wrBlkH w => exact decode_encode_selectAccess (.write w) (off := 0x10) rfl
  | wrBlkL w => exact decode_encode_selectAccess (.write w) (off := 0x14) rfl
  | rsvAccess a off =>
    obtain ⟨aligned, no_register⟩ := reservedOffset_iff.mp wf
    rw [← selectAccess_of_notMem no_register a]
    exact decode_encode_selectAccess a aligned
  | badAccess a sz off => exact (decodeAccess_mkTransaction a sz off).trans (if_pos wf)

/-- Settles O6: each word is the encoding of its instruction. -/
theorem wordsFromTheTablesDecode : Obligations.WordsFromTheTablesDecode :=
  ⟨decodeReadsBackEveryEncoding .keygen rfl,
   decodeReadsBackEveryEncoding (.illegalCmd 0x80000002) (by decide),
   decodeReadsBackEveryEncoding (.wrKey 0x4C1EBEDD) rfl,
   decodeReadsBackEveryEncoding .rdBlkL rfl,
   decodeReadsBackEveryEncoding (.rsvAccess (.write 7) 0x0C) (by decide),
   decodeReadsBackEveryEncoding (.badAccess (.write 7) 0 0x0D) (by decide)⟩

end Sys2Proof
end

section
/-! PROOFS. Every access descriptor stands in one row of the opcode table (30_encoding.md R84, R88): in a row of its decoded
instruction by the family InTable, and in no other, since no two rows share a word. -/

namespace Sys2Proof

/-! ### The decoded instruction is well-formed -/

/-- R84: what a 4-byte access to a multiple of 4 selects is a register's access or one to a reserved offset. -/
theorem selectAccess_wellFormed (a : Access) {off : Byte} (aligned : illFormedAccess 2 off = false) :
    (selectAccess a off).WellFormed := by
  by_cases h : off ∈ registerOffsets
  · obtain rfl | rfl | rfl | rfl | rfl := mem_registerOffsets.mp h <;> cases a <;> rfl
  · rw [selectAccess_of_notMem h]
    exact reservedOffset_iff.mpr ⟨aligned, h⟩

theorem decodeAccess_wellFormed (t : Transaction) : (decodeAccess t).WellFormed := by
  rw [decodeAccess_eq_illFormed]
  split_ifs with ill
  · exact ill
  · obtain ⟨-, aligned⟩ := illFormedAccess_eq_false_iff.mp (Bool.eq_false_of_not_eq_true ill)
    exact selectAccess_wellFormed _ (illFormedAccess_eq_false_iff.mpr ⟨rfl, aligned⟩)

/-! ### The row of an instruction -/

theorem inTable (i : Instr) : Laws.InTable.Statement i := by
  cases i with
  | nop => exact Laws.InTable.nop
  | keygen => exact Laws.InTable.keygen
  | decrypt => exact Laws.InTable.decrypt
  | zeroize => exact Laws.InTable.zeroize
  | illegalCmd w => exact Laws.InTable.illegalCmd w
  | wrCmd w => exact Laws.InTable.wrCmd w
  | rdCmd => exact Laws.InTable.rdCmd
  | rdStatus => exact Laws.InTable.rdStatus
  | wrStatus w => exact Laws.InTable.wrStatus w
  | rdKey => exact Laws.InTable.rdKey
  | wrKey w => exact Laws.InTable.wrKey w
  | rdBlkH => exact Laws.InTable.rdBlkH
  | rdBlkL => exact Laws.InTable.rdBlkL
  | wrBlkH w => exact Laws.InTable.wrBlkH w
  | wrBlkL w => exact Laws.InTable.wrBlkL w
  | rsvAccess a off => exact Laws.InTable.rsvAccess a off
  | badAccess a sz off => exact Laws.InTable.badAccess a sz off

theorem Instr.hasRow_iff {i : Instr} {rows : List TableRow} {w : Nat} :
    i.hasRow rows w = true ↔ ∃ row ∈ rows, row.covers w = true ∧ row.mnemonic = i.mnemonic := by
  simp only [Instr.hasRow, List.any_eq_true, Bool.and_eq_true, beq_iff_eq]
  exact exists_congr fun row => and_congr_right fun _ => and_comm

/-- R84: the decoded instruction's row covers the descriptor, which its encoding gives back. -/
theorem decodeAccess_hasRow (t : Transaction) : (decodeAccess t).hasRow accessRows t.desc.toNat = true := by
  have row := inTable (decodeAccess t) (decodeAccess_wellFormed t)
  rw [encode_decodeAccess, mkTransaction_fields] at row
  exact row

/-! ### No two rows share a word -/

/-- The two patterns differ in a bit that both masks look at. -/
def TableRow.Apart (r q : TableRow) : Prop := r.pattern &&& q.mask ≠ q.pattern &&& r.mask

/-- A word in both rows would show that bit two ways. -/
theorem TableRow.not_apart_of_covers {r q : TableRow} {w : Nat} (hr : r.covers w = true) (hq : q.covers w = true) :
    ¬ r.Apart q := by
  have in_r : w &&& r.mask = r.pattern := beq_iff_eq.mp hr
  have in_q : w &&& q.mask = q.pattern := beq_iff_eq.mp hq
  exact not_not_intro <|
    calc r.pattern &&& q.mask = w &&& r.mask &&& q.mask := by rw [in_r]
      _ = w &&& q.mask &&& r.mask := Nat.and_right_comm ..
      _ = q.pattern &&& r.mask := by rw [in_q]

theorem accessRows_pairwise_apart : accessRows.Pairwise TableRow.Apart := by
  unfold TableRow.Apart
  decide

theorem accessRows_eq_of_covers {r q : TableRow} (hr : r ∈ accessRows) (hq : q ∈ accessRows) {w : Nat}
    (r_covers : r.covers w = true) (q_covers : q.covers w = true) : r = q := by
  have symm : Std.Symm TableRow.Apart := ⟨fun _ _ apart => Ne.symm apart⟩
  by_contra differ
  exact TableRow.not_apart_of_covers r_covers q_covers (accessRows_pairwise_apart.forall hr hq differ)

/-- Settles O3: the row that the decoded instruction has is the only one, the rows being apart. -/
theorem everyDescriptorIsOneTableRow : Obligations.EveryDescriptorIsOneTableRow := by
  refine fun t => ⟨decodeAccess_wellFormed t, ?_⟩
  obtain ⟨row, listed, covers, mnemonic⟩ := Instr.hasRow_iff.mp (decodeAccess_hasRow t)
  exact ⟨row, listed, covers, mnemonic, fun _ other_listed other_covers =>
    accessRows_eq_of_covers other_listed listed other_covers covers⟩

end Sys2Proof
end

section
/-! PROOFS. What each word offered to the command port runs, and what an illegal one does (30_encoding.md R80, R86; 43_control.md
R172). -/

namespace Sys2Proof.Machine

/-! ### What a word does at the command port -/

/-- R80, R172: a write to CMD runs the instruction its word decodes to. -/
theorem exec_wrCmd (w : Word) (s : State) : exec (.wrCmd w) s = exec (decodeCommand w) s := by
  obtain rfl | rfl | rfl | rfl | illegal := command_word_cases w
  · exact execWrCmd_zero s
  · exact execWrCmd_one s
  · exact execWrCmd_two s
  · exact execWrCmd_three s
  · rw [decodeCommand_of_le illegal]
    exact execWrCmd_illegal illegal s

/-- R80: the transaction that carries a form to the CORE runs the instruction of that form. -/
theorem hostAccess_transactionOf (f : Form) (s : State) : hostAccess (transactionOf f) s = exec (decode f) s := by
  cases f with
  | access t => rfl
  | command w =>
    have at_cmd : decode (.access ⟨0x600, w⟩) = .wrCmd w := decodeReadsBackEveryEncoding (.wrCmd w) rfl
    rw [transactionOf, hostAccess, at_cmd, exec_wrCmd, decode]

/-- A table word that has a form is offered by that form's transaction (log 11). -/
theorem step_withFetchWord {nbits w : Nat} {f : Form} (h : formOfTableWord nbits w = some f) (s : State) :
    step (s.withFetchWord nbits w) = exec (decode f) s := by
  have offered : tableTransaction nbits w = transactionOf f := by simp only [tableTransaction, h]
  rw [step, State.withFetchWord, takeStep_issueNext, offered, hostAccess_transactionOf]

/-- Settles O8: the port by the words offered to it, the table word by the form it has. -/
theorem commandPortRunsTheOfferedCommand : Obligations.CommandPortRunsTheOfferedCommand := by
  refine ⟨exec_wrCmd, fun s nbits w i h => ?_⟩
  obtain ⟨f, hf, rfl⟩ := Option.map_eq_some_iff.mp h
  exact step_withFetchWord hf s

/-- R86: an idle CORE records BADCMD for an illegal word. -/
theorem exec_illegalCmd_of_idle (w : Word) {s : State} (idle : s.op = .none) :
    exec (.illegalCmd w) s = .next ((s.recordError .badCmd).returning 0) :=
  whenIdle_of_idle idle _

/-- Settles O14: RSV not 0 and an OPC of 4 or more both make a word of 4 or more. -/
theorem illegalWordsRaiseBadCmd : Obligations.IllegalWordsRaiseBadCmd := by
  refine fun w s idle => ⟨exec_illegalCmd_of_idle w idle, fun fields => ?_⟩
  have decoded : decodeCommand w = .illegalCmd w := decodeCommand_of_le (by omega)
  refine ⟨decoded, ?_⟩
  rw [exec_wrCmd, decoded]
  exact exec_illegalCmd_of_idle w idle

end Sys2Proof.Machine
end

section
/-! PROOFS. The key registers (40_key_schedule.md R101 to R106, R113, R115): what the bit step does to each bit, how rotation and
stepping pass each other, and so where the registers stand after any number of KS rounds. -/

namespace Sys2Proof.Machine

/-! ### The bit step (R106, R113) -/

theorem stepReg_getLsbD (v : BitVec 16) {i : Nat} (hi : i < 16) :
    (stepReg v).getLsbD i = if i < 15 then v.getLsbD (i + 1) else !v.getLsbD 0 := by
  by_cases inside : i < 15
  · simp [stepReg, inside, Nat.add_comm 1 i]
  · obtain rfl : i = 15 := by omega
    simp [stepReg]

/-- R106: k steps bring the bits from bit k on to the bottom and put the complements of the k bits that left above them. -/
theorem stepReg_iterate_getLsbD (v : BitVec 16) {k : Nat} (hk : k ≤ 16) {i : Nat} (hi : i < 16) :
    (stepReg^[k] v).getLsbD i = if i + k < 16 then v.getLsbD (i + k) else !v.getLsbD (i + k - 16) := by
  induction k generalizing i with
  | zero => simp [hi]
  | succ k ih =>
    rw [Function.iterate_succ_apply', stepReg_getLsbD _ hi]
    by_cases inside : i < 15
    · rw [if_pos inside, ih (by omega) (by omega), Nat.add_right_comm i 1 k]
      rfl
    · obtain rfl : i = 15 := by omega
      rw [if_neg inside, ih (by omega) (by omega), if_pos (by omega), if_neg (by omega),
        show 15 + (k + 1) - 16 = 0 + k by omega]

theorem stepReg_iterate_sixteen (v : BitVec 16) : stepReg^[16] v = ~~~v := by
  ext i hi
  rw [← BitVec.getLsbD_eq_getElem, stepReg_iterate_getLsbD v le_rfl hi, if_neg (by omega), BitVec.getElem_not]
  rfl

theorem stepReg_iterate_thirtyTwo (v : BitVec 16) : stepReg^[32] v = v := by
  rw [show 32 = 16 + 16 from rfl, Function.iterate_add_apply, stepReg_iterate_sixteen, stepReg_iterate_sixteen,
    BitVec.not_not]

/-- R113: the period divides 32 = 2 ^ 5, and 16 steps move every value. -/
theorem stepReg_minimalPeriod (v : BitVec 16) : Function.minimalPeriod stepReg v = 32 :=
  have not_sixteen : ¬ Function.IsPeriodicPt stepReg (2 ^ 4) v := by
    rw [Function.IsPeriodicPt, Function.IsFixedPt, show 2 ^ 4 = 16 from rfl, stepReg_iterate_sixteen]
    simp
  Function.minimalPeriod_eq_prime_pow (p := 2) (k := 4) not_sixteen (stepReg_iterate_thirtyTwo v)

/-- R113: 31 more steps undo one. -/
theorem stepReg_bijective : Function.Bijective stepReg :=
  Function.bijective_iff_has_inverse.mpr ⟨stepReg^[31], stepReg_iterate_thirtyTwo,
    fun v => (Function.iterate_succ_apply' stepReg 31 v).symm.trans (stepReg_iterate_thirtyTwo v)⟩

/-- Settles O40, from the bits of the k-th step. -/
theorem bitStepHasPeriodThirtyTwo : Obligations.BitStepHasPeriodThirtyTwo :=
  ⟨stepReg_bijective, fun v => ⟨stepReg_iterate_sixteen v, stepReg_iterate_thirtyTwo v, stepReg_minimalPeriod v⟩⟩

/-! ### The four registers: slots, rotation, stepping (R103, R105, R109) -/

theorem KeyRegs.get_congr (v : KeyRegs) {i j : Nat} (h : i % 4 = j % 4) : v.get i = v.get j := by
  rw [get, get, h]

@[simp] theorem KeyRegs.get_stepAll (v : KeyRegs) (i : Nat) : v.stepAll.get i = stepReg (v.get i) := by
  unfold get
  split <;> rfl

@[simp] theorem KeyRegs.get_rotate (v : KeyRegs) (d i : Nat) : (v.rotate d).get i = v.get (i + d) := by
  have at_slot : ∀ k < 4, (v.rotate d).get k = v.get (k + d) := fun k hk => by interval_cases k <;> rfl
  rw [(v.rotate d).get_congr (Nat.mod_mod i 4).symm, at_slot _ (Nat.mod_lt i (by decide))]
  exact v.get_congr (by omega)

/-- R105, CUMULATIVE: rotations add up. -/
theorem KeyRegs.rotate_rotate (v : KeyRegs) (a b : Nat) : (v.rotate a).rotate b = v.rotate (a + b) := by
  rw [rotate]
  simp only [get_rotate, Nat.add_assoc, Nat.add_comm b a]
  rfl

theorem KeyRegs.rotate_stepAll (v : KeyRegs) (d : Nat) : v.stepAll.rotate d = (v.rotate d).stepAll := by
  simp only [rotate, stepAll, ← get_stepAll]

theorem KeyRegs.rotate_stepAll_iterate (v : KeyRegs) (n d : Nat) :
    (KeyRegs.stepAll^[n] v).rotate d = KeyRegs.stepAll^[n] (v.rotate d) :=
  have commutes : Function.Commute (KeyRegs.rotate · d) KeyRegs.stepAll := fun v => v.rotate_stepAll d
  commutes.iterate_right n v

theorem KeyRegs.stepAll_iterate (v : KeyRegs) (n : Nat) :
    KeyRegs.stepAll^[n] v = ⟨stepReg^[n] v.v0, stepReg^[n] v.v1, stepReg^[n] v.v2, stepReg^[n] v.v3⟩ := by
  induction n with
  | zero => rfl
  | succ n ih => simp only [Function.iterate_succ_apply', ih, stepAll]

/-! ### The register load (R101 to R103) -/

theorem be16_be32bytes (w : Word) :
    be16 (be32bytes w)[0] (be32bytes w)[1] = w.extractLsb' 16 16 ∧
      be16 (be32bytes w)[2] (be32bytes w)[3] = w.extractLsb' 0 16 :=
  ⟨BitVec.extractLsb'_append_extractLsb'_eq_extractLsb' rfl, BitVec.extractLsb'_append_extractLsb'_eq_extractLsb' rfl⟩

theorem loadKeyRegs_eq (key : Word) :
    loadKeyRegs key = ⟨(subkey1 key).extractLsb' 16 16, (subkey1 key).extractLsb' 0 16,
      (subkey2 key).extractLsb' 16 16, (subkey2 key).extractLsb' 0 16⟩ := by
  obtain ⟨high1, low1⟩ := be16_be32bytes (subkey1 key)
  obtain ⟨high2, low2⟩ := be16_be32bytes (subkey2 key)
  rw [← high1, ← low1, ← high2, ← low2]
  rfl

/-- Settles O39: neighbouring bytes of a subkey join to its halves. -/
theorem keyRegistersAreTheSubkeyHalves : Obligations.KeyRegistersAreTheSubkeyHalves :=
  loadKeyRegs_eq

/-! ### The registers after KS rounds (R105, R113) -/

/-- The registers that the KS rounds of the rotations `ds` leave. -/
def afterRounds (v : KeyRegs) (ds : List Nat) : KeyRegs :=
  ds.foldl (fun v d => KeyRegs.stepAll^[15] (v.rotate d)) v

theorem finalKeyRegs_eq (key : Word) : finalKeyRegs key = afterRounds (loadKeyRegs key) rotSchedule := by
  simp only [finalKeyRegs, afterRounds, ksRound_v]

/-- Rotation and stepping pass each other, so the rounds are one rotation and one run of steps. -/
theorem afterRounds_eq (v : KeyRegs) (ds : List Nat) :
    afterRounds v ds = KeyRegs.stepAll^[15 * ds.length] (v.rotate ds.sum) := by
  induction ds generalizing v with
  | nil => rfl
  | cons d ds ih =>
    calc afterRounds (KeyRegs.stepAll^[15] (v.rotate d)) ds
        = KeyRegs.stepAll^[15 * ds.length] (KeyRegs.stepAll^[15] (v.rotate (d + ds.sum))) := by
          rw [ih, KeyRegs.rotate_stepAll_iterate, KeyRegs.rotate_rotate]
      _ = KeyRegs.stepAll^[15 * (d :: ds).length] (v.rotate (d :: ds).sum) := by
          rw [← Function.iterate_add_apply, List.sum_cons, List.length_cons, Nat.mul_succ]

/-- R113: 240 is 16 mod 32. -/
theorem stepReg_iterate_twoHundredForty (v : BitVec 16) : stepReg^[240] v = ~~~v := by
  rw [← Function.iterate_mod_minimalPeriod_eq, stepReg_minimalPeriod]
  exact stepReg_iterate_sixteen v

/-- Settles O41: 240 steps complement each register, and the rotations' sum of 30 turns the vector by two slots. -/
theorem keyRegistersEndComplementedAndTurned : Obligations.KeyRegistersEndComplementedAndTurned := by
  intro key
  rw [finalKeyRegs_eq, afterRounds_eq, show 15 * rotSchedule.length = 240 from rfl, KeyRegs.stepAll_iterate]
  simp only [stepReg_iterate_twoHundredForty]
  rfl

/-! ### The command (R115) -/

/-- Settles O11: the busy check passes, and acceptance is the rest. -/
theorem keygenIsAcceptedWhenIdle : Obligations.KeygenIsAcceptedWhenIdle :=
  fun s idle => whenIdle_of_idle idle (finishWrite s.acceptKeygen)

end Sys2Proof.Machine
end

section
/-! PROOFS. The keystream words as five nibbles each (40_key_schedule.md R107 to R112): which nibbles a word joins, and its value
as a number of base 16. -/

namespace Sys2Proof.Machine

/-! ### The nibbles of a word -/

/-- The nibble of iteration j of a KS round that rotates `v` by d (R105, R109). -/
def roundNibble (v : KeyRegs) (d j : Nat) : BitVec 4 := (KeyRegs.stepAll^[j] (v.rotate d)).nibble

/-- The first n nibbles that word t of that round takes, the first one first (R108). -/
def wordNibbles (v : KeyRegs) (d t n : Nat) : List (BitVec 4) :=
  (List.range n).map fun m => roundNibble v d (t + 3 * m)

/-- A word that starts at 0 and takes the nibbles of `l` (R107, R110). -/
def joinNibbles (l : List (BitVec 4)) : Word := l.foldl accumulate 0

theorem wordNibbles_succ (v : KeyRegs) (d t n : Nat) :
    wordNibbles v d t (n + 1) = wordNibbles v d t n ++ [roundNibble v d (t + 3 * n)] := by
  rw [wordNibbles, List.range_succ, List.map_append]
  rfl

theorem joinNibbles_concat (l : List (BitVec 4)) (x : BitVec 4) :
    joinNibbles (l ++ [x]) = accumulate (joinNibbles l) x :=
  List.foldl_concat accumulate 0 x l

/-! ### A KS round (R100, R108) -/

/-- R108: three iterations from a multiple of 3 on serve each of the round's words once. -/
theorem ksIteration_three (st : RoundWork) (n : Nat) :
    ksIteration (ksIteration (ksIteration st (3 * n)) (3 * n + 1)) (3 * n + 2) =
      ⟨KeyRegs.stepAll^[3] st.v, accumulate st.w0 st.v.nibble, accumulate st.w1 st.v.stepAll.nibble,
        accumulate st.w2 st.v.stepAll.stepAll.nibble⟩ := by
  simp [ksIteration, Nat.add_mod]

theorem ksIterations_eq (v : KeyRegs) (d n : Nat) :
    (List.range (3 * n)).foldl ksIteration ⟨v.rotate d, 0, 0, 0⟩ =
      ⟨KeyRegs.stepAll^[3 * n] (v.rotate d), joinNibbles (wordNibbles v d 0 n), joinNibbles (wordNibbles v d 1 n),
        joinNibbles (wordNibbles v d 2 n)⟩ := by
  induction n with
  | zero => rfl
  | succ n ih =>
    rw [Nat.mul_succ, List.range_succ, List.range_succ, List.range_succ]
    simp only [List.foldl_append, List.foldl_cons, List.foldl_nil, ih, ksIteration_three, wordNibbles_succ,
      joinNibbles_concat, roundNibble]
    simp only [← Function.iterate_succ_apply', ← Function.iterate_add_apply]
    rw [Nat.zero_add, Nat.add_comm 1, Nat.add_comm 2, Nat.add_comm 3]

theorem ksRound_words (v : KeyRegs) (d : Nat) :
    (ksRound v d).words = (List.range 3).map fun t => joinNibbles (wordNibbles v d t 5) := by
  rw [ksRound, ksIterations_eq v d 5]
  rfl

/-! ### All KS rounds (R57, R105) -/

theorem ksRounds_getElem? (v : KeyRegs) (ds : List Nat) (r : Nat) :
    (ksRounds v ds)[r]? = ds[r]?.map (ksRound (afterRounds v (ds.take r))) := by
  induction ds generalizing v r with
  | nil => rfl
  | cons d ds ih =>
    cases r with
    | zero => rfl
    | succ r =>
      simp only [ksRounds, List.getElem?_cons_succ, ih, List.take_succ_cons, ksRound_v]
      rfl

/-- R57: KS round r owns the words from 3r on. -/
theorem flatMap_words_getElem? (l : List RoundWork) (r : Nat) {t : Nat} (ht : t < 3) :
    (l.flatMap RoundWork.words)[3 * r + t]? = l[r]?.bind (·.words[t]?) := by
  induction l generalizing r with
  | nil => rfl
  | cons st l ih =>
    have three : st.words.length = 3 := rfl
    rw [List.flatMap_cons, List.getElem?_append, three]
    cases r with
    | zero => simp [ht]
    | succ r =>
      rw [if_neg (by omega), List.getElem?_cons_succ, ← ih, show 3 * (r + 1) + t - 3 = 3 * r + t by omega]

/-- The five nibbles of word t of KS round r of a key. -/
def keystreamNibbles (key : Word) (r t : Nat) : List (BitVec 4) :=
  wordNibbles (afterRounds (loadKeyRegs key) (rotSchedule.take r)) (rotSchedule.getD r 0) t 5

theorem keystreamNibbles_length (key : Word) (r t : Nat) : (keystreamNibbles key r t).length = 5 := by
  rw [keystreamNibbles, wordNibbles, List.length_map, List.length_range]

theorem keystreamWords_getElem? (key : Word) {r t : Nat} (hr : r < 16) (ht : t < 3) :
    (keystreamWords key)[3 * r + t]? = some (joinNibbles (keystreamNibbles key r t)) := by
  have rotation : rotSchedule[r]? = some (rotSchedule.getD r 0) := by
    rw [List.getD_eq_getElem _ _ hr]
    exact List.getElem?_eq_getElem hr
  rw [keystreamWords, flatMap_words_getElem? _ r ht, ksRounds_getElem?, rotation, Option.map_some, Option.bind_some,
    ksRound_words, List.getElem?_map, List.getElem?_range ht]
  rfl

theorem keySchedule_getElem (key : Word) (j : Fin 48) :
    (keySchedule key)[j] = joinNibbles (keystreamNibbles key (j / 3) (j % 3)) := by
  have word := keystreamWords_getElem? key (r := j / 3) (t := j % 3) (by omega) (by omega)
  rw [Nat.div_add_mod] at word
  exact (List.getElem?_eq_some_iff.mp word).2

/-! ### The value of a word (R110 to R112) -/

theorem accumulate_toNat {w : Word} (hw : w.toNat < 2 ^ 28) (x : BitVec 4) :
    (accumulate w x).toNat = w.toNat * 16 + x.toNat := by
  have no_overflow : w.toNat <<< 4 < 2 ^ 32 := by rw [Nat.shiftLeft_eq]; omega
  rw [accumulate, BitVec.toNat_or, BitVec.toNat_shiftLeft, BitVec.toNat_setWidth_of_le (by decide),
    Nat.mod_eq_of_lt no_overflow, ← Nat.shiftLeft_add_eq_or_of_lt x.isLt, Nat.shiftLeft_eq]

theorem ofDigits_nibbles_lt (l : List (BitVec 4)) : Nat.ofDigits 16 (l.map BitVec.toNat) < 16 ^ l.length := by
  rw [← List.length_map (f := BitVec.toNat) (as := l)]
  refine Nat.ofDigits_lt_base_pow_length (by decide) fun x hx => ?_
  obtain ⟨y, -, rfl⟩ := List.mem_map.mp hx
  exact y.isLt

/-- R110: eight nibbles fill a word, so up to eight are its digits to base 16, the last one the lowest. -/
theorem joinNibbles_toNat {l : List (BitVec 4)} (hl : l.length ≤ 8) :
    (joinNibbles l).toNat = Nat.ofDigits 16 (l.reverse.map BitVec.toNat) := by
  induction l using List.reverseRecOn with
  | nil => rfl
  | append_singleton l x ih =>
    rw [List.length_append, List.length_singleton] at hl
    have value := ih (by omega)
    have bound : (joinNibbles l).toNat < 2 ^ 28 :=
      calc (joinNibbles l).toNat < 16 ^ l.reverse.length := value ▸ ofDigits_nibbles_lt l.reverse
        _ ≤ 16 ^ 7 := Nat.pow_le_pow_right (by decide) (by rw [List.length_reverse]; omega)
    rw [joinNibbles_concat, accumulate_toNat bound, value, List.reverse_append, List.reverse_singleton,
      List.singleton_append, List.map_cons, Nat.ofDigits_cons, Nat.mul_comm, Nat.add_comm]

theorem joinNibbles_keystreamNibbles_toNat (key : Word) (r t : Nat) :
    (joinNibbles (keystreamNibbles key r t)).toNat =
      Nat.ofDigits 16 ((keystreamNibbles key r t).reverse.map BitVec.toNat) :=
  joinNibbles_toNat (by rw [keystreamNibbles_length]; decide)

/-- R111: the five digits written out as a sum. -/
theorem wordNibbles_ofDigits (v : KeyRegs) (d t : Nat) :
    Nat.ofDigits 16 ((wordNibbles v d t 5).reverse.map BitVec.toNat) =
      ((List.range 5).map fun m => (roundNibble v d (t + 3 * m)).toNat * 2 ^ (4 * (4 - m))).sum := by
  simp only [wordNibbles, List.range_succ, List.range_zero, List.nil_append, List.cons_append, List.map_cons,
    List.map_nil, List.reverse_cons, List.reverse_nil, Nat.ofDigits_cons, Nat.ofDigits_nil, List.sum_cons,
    List.sum_nil]
  omega

/-- Settles O42: the word joins the five nibbles of its round, and they are its digits to base 16. -/
theorem keystreamWordsHaveTheClosedForm : Obligations.KeystreamWordsHaveTheClosedForm := by
  intro key r t
  have word : (keySchedule key).toList.getD (3 * r + t) 0 = joinNibbles (keystreamNibbles key r t) := by
    rw [List.getD_eq_getElem?_getD]
    exact congrArg (·.getD 0) (keystreamWords_getElem? key r.isLt t.isLt)
  simp only [word]
  exact (joinNibbles_keystreamNibbles_toNat key r t).trans (wordNibbles_ofDigits _ _ t)

theorem keySchedule_lt (key : Word) (j : Fin 48) : (keySchedule key)[j].toNat < 2 ^ 20 := by
  rw [keySchedule_getElem, joinNibbles_keystreamNibbles_toNat]
  refine (ofDigits_nibbles_lt _).trans_le ?_
  rw [List.length_reverse, keystreamNibbles_length]
  decide

/-- Settles O43: five digits to base 16 are below 2 ^ 20, and KSV = 1 in a sound state says that KS is a keystream. -/
theorem keystreamWordsAreTwentyBits : Obligations.KeystreamWordsAreTwentyBits := by
  refine ⟨keySchedule_lt, fun s sound keyed j => ?_⟩
  obtain ⟨key, made⟩ := sound.keystream keyed
  rw [made]
  exact keySchedule_lt key j

end Sys2Proof.Machine
end

section
/-! PROOFS. How the keystreams of two keys differ (40_key_schedule.md R101 to R110): registers two slots apart differ between the
keys in the same bits, through every rotation and step, so each nibble differs in its high half as in its low half. -/

namespace Sys2Proof.Machine

/-! ### Registers that differ alike -/

/-- Registers two slots apart differ between the two vectors in the same bits. -/
def KeyRegs.DifferAlike (v v' : KeyRegs) : Prop :=
  ∀ i, v.get i ^^^ v'.get i = v.get (i + 2) ^^^ v'.get (i + 2)

/-- R106: the complement of the bit that left cancels, so a difference of registers is only turned. -/
theorem stepReg_xor (a b : BitVec 16) : stepReg a ^^^ stepReg b = (a ^^^ b).rotateRight 1 := by
  ext i hi
  simp only [← BitVec.getLsbD_eq_getElem, BitVec.getLsbD_xor, stepReg_getLsbD _ hi, BitVec.getLsbD_rotateRight,
    Nat.add_comm 1 i]
  by_cases inside : i < 15
  · simp [inside]
  · simp [show i = 15 by omega]

section
variable {v v' : KeyRegs}

theorem KeyRegs.differAlike_of_slots (even : v.v0 ^^^ v'.v0 = v.v2 ^^^ v'.v2)
    (odd : v.v1 ^^^ v'.v1 = v.v3 ^^^ v'.v3) : v.DifferAlike v' := by
  intro i
  obtain slot | slot | slot | slot : i % 4 = 0 ∨ i % 4 = 1 ∨ i % 4 = 2 ∨ i % 4 = 3 := by omega
  all_goals simp [get, Nat.add_mod i 2, slot, even, odd]

theorem KeyRegs.DifferAlike.rotate (h : v.DifferAlike v') (d : Nat) : (v.rotate d).DifferAlike (v'.rotate d) := by
  intro i
  simp only [get_rotate, Nat.add_right_comm i 2 d]
  exact h (i + d)

theorem KeyRegs.DifferAlike.stepAll (h : v.DifferAlike v') : v.stepAll.DifferAlike v'.stepAll := by
  intro i
  simp only [get_stepAll, stepReg_xor, h i]

theorem KeyRegs.DifferAlike.stepAll_iterate (h : v.DifferAlike v') (n : Nat) :
    (KeyRegs.stepAll^[n] v).DifferAlike (KeyRegs.stepAll^[n] v') := by
  induction n with
  | zero => exact h
  | succ n ih =>
    rw [Function.iterate_succ_apply', Function.iterate_succ_apply']
    exact ih.stepAll

theorem KeyRegs.DifferAlike.afterRounds (h : v.DifferAlike v') (ds : List Nat) :
    (afterRounds v ds).DifferAlike (afterRounds v' ds) := by
  rw [afterRounds_eq, afterRounds_eq]
  exact (h.rotate _).stepAll_iterate _

end

theorem xor_mask_cancel (a b c : Word) : (a ^^^ c) ^^^ (b ^^^ c) = a ^^^ b :=
  calc (a ^^^ c) ^^^ (b ^^^ c) = (a ^^^ b) ^^^ (c ^^^ c) := by ac_rfl
    _ = a ^^^ b := by rw [BitVec.xor_self, BitVec.xor_zero]

/-- R101, R103: both subkeys of two keys differ as the keys do, so their halves do. -/
theorem loadKeyRegs_differAlike (key key' : Word) : (loadKeyRegs key).DifferAlike (loadKeyRegs key') := by
  have subkeys : subkey1 key ^^^ subkey1 key' = subkey2 key ^^^ subkey2 key' :=
    (xor_mask_cancel key key' _).trans (xor_mask_cancel key key' _).symm
  have halves (k : Nat) : (subkey1 key).extractLsb' k 16 ^^^ (subkey1 key').extractLsb' k 16 =
      (subkey2 key).extractLsb' k 16 ^^^ (subkey2 key').extractLsb' k 16 := by
    rw [← BitVec.extractLsb'_xor, ← BitVec.extractLsb'_xor, subkeys]
  rw [loadKeyRegs_eq, loadKeyRegs_eq]
  exact KeyRegs.differAlike_of_slots (halves 16) (halves 0)

/-! ### Differences whose nibbles repeat -/

/-- In each nibble bit 3 is bit 1 and bit 2 is bit 0. -/
def TwinBits {n : Nat} (x : BitVec n) : Prop := ∀ i, i % 4 < 2 → x.getLsbD (i + 2) = x.getLsbD i

theorem TwinBits.mask_eq {d : Word} (h : TwinBits d) : (d >>> 2) &&& 0x33333333 = d &&& 0x33333333 := by
  have mask : ∀ i < 32, (0x33333333 : Word).getLsbD i = true → i % 4 < 2 := by decide
  ext i hi
  rw [BitVec.getElem_and, BitVec.getElem_and, BitVec.getElem_ushiftRight, ← BitVec.getLsbD_eq_getElem,
    ← BitVec.getLsbD_eq_getElem, Nat.add_comm]
  cases selected : (0x33333333 : Word).getLsbD i with
  | false => rw [Bool.and_false, Bool.and_false]
  | true => rw [h i (mask i hi selected)]

theorem accumulate_getLsbD (w : Word) (x : BitVec 4) (i : Nat) :
    (accumulate w x).getLsbD i = if i < 4 then x.getLsbD i else decide (i < 32) && w.getLsbD (i - 4) := by
  by_cases low : i < 4
  · simp [accumulate, low]
    omega
  · simp [accumulate, low, BitVec.getLsbD_of_ge x i (by omega)]

theorem accumulate_xor (w w' : Word) (x x' : BitVec 4) :
    accumulate w x ^^^ accumulate w' x' = accumulate (w ^^^ w') (x ^^^ x') := by
  ext i hi
  simp only [← BitVec.getLsbD_eq_getElem, BitVec.getLsbD_xor, accumulate_getLsbD]
  split
  · rfl
  · simp [hi]

theorem TwinBits.accumulate {w : Word} {x : BitVec 4} (hw : TwinBits w) (hx : TwinBits x) :
    TwinBits (accumulate w x) := by
  intro i hi
  rw [accumulate_getLsbD, accumulate_getLsbD]
  by_cases low : i < 4
  · rw [if_pos (by omega), if_pos low, hx i hi]
  · have same_word : i + 2 < 32 ↔ i < 32 := by omega
    rw [if_neg (by omega), if_neg low, ← hw (i - 4) (by omega), show i + 2 - 4 = i - 4 + 2 by omega]
    simp only [same_word]

/-! ### From the registers to the words (R109, R110) -/

theorem KeyRegs.nibble_getLsbD (v : KeyRegs) {i : Nat} (hi : i < 4) :
    v.nibble.getLsbD i = (v.get (3 - i)).getLsbD 0 := by
  simp only [nibble, BitVec.getLsbD_append]
  interval_cases i
  all_goals simp [get]

section
variable {v v' : KeyRegs}

theorem KeyRegs.DifferAlike.nibble (h : v.DifferAlike v') : TwinBits (v.nibble ^^^ v'.nibble) := by
  intro i hi
  by_cases low : i < 2
  · have alike := congrArg (·.getLsbD 0) (h (1 - i))
    simp only [BitVec.getLsbD_xor, nibble_getLsbD _ (show i < 4 by omega),
      nibble_getLsbD _ (show i + 2 < 4 by omega)] at alike ⊢
    rwa [show 3 - (i + 2) = 1 - i by omega, show 3 - i = 1 - i + 2 by omega]
  · rw [BitVec.getLsbD_of_ge _ _ (by omega), BitVec.getLsbD_of_ge _ _ (by omega)]

theorem KeyRegs.DifferAlike.roundNibble (h : v.DifferAlike v') (d j : Nat) :
    TwinBits (roundNibble v d j ^^^ roundNibble v' d j) :=
  ((h.rotate d).stepAll_iterate j).nibble

theorem KeyRegs.DifferAlike.joinNibbles (h : v.DifferAlike v') (d t n : Nat) :
    TwinBits (joinNibbles (wordNibbles v d t n) ^^^ joinNibbles (wordNibbles v' d t n)) := by
  induction n with
  | zero => exact fun i _ => by simp [wordNibbles]
  | succ n ih =>
    rw [wordNibbles_succ, wordNibbles_succ, joinNibbles_concat, joinNibbles_concat, accumulate_xor]
    exact ih.accumulate (h.roundNibble d _)

end

theorem keySchedule_twinBits (key key' : Word) (j : Fin 48) :
    TwinBits ((keySchedule key)[j] ^^^ (keySchedule key')[j]) := by
  rw [keySchedule_getElem, keySchedule_getElem]
  exact ((loadKeyRegs_differAlike key key').afterRounds _).joinNibbles _ _ 5

/-! ### A word that never occurs -/

/-- The 48 words of key 0, evaluated. -/
theorem keySchedule_zero_mask_ne (j : Fin 48) :
    ((keySchedule 0)[j] >>> 2) &&& 0x33333333 ≠ (keySchedule 0)[j] &&& 0x33333333 := by
  revert j
  decide

/-- A word that is 0 differs from the word of key 0 by that word itself, which does not repeat in its nibbles. -/
theorem keySchedule_ne_zero (key : Word) (j : Fin 48) : (keySchedule key)[j] ≠ 0 := by
  intro zero
  have twin : TwinBits (keySchedule 0)[j] := by simpa [zero] using keySchedule_twinBits 0 key j
  exact keySchedule_zero_mask_ne j twin.mask_eq

/-- Settles O44: the difference of two keys' words repeats in each nibble, and no key has the word 0. -/
theorem keystreamDifferencesRepeatInEachNibble : Obligations.KeystreamDifferencesRepeatInEachNibble :=
  ⟨fun key key' j => (keySchedule_twinBits key key' j).mask_eq, 0, keySchedule_ne_zero⟩

end Sys2Proof.Machine
end

section
/-! PROOFS. Progress: every host access goes on (60_exceptions.md R200), every completion of a sound state does (R205;
41_round_function.md R140), and so does every run. -/

namespace Sys2Proof.Machine

/-! ### Host accesses (R200) -/

theorem whenIdle_goesOn {k : Result} (hk : GoesOn k) (s : State) : GoesOn (whenIdle s k) := by
  by_cases idle : s.op = .none
  · rwa [whenIdle_of_idle idle]
  · rw [whenIdle_of_busy idle]
    exact ⟨_, raiseError_eq s .busy⟩

/-- R157: DECRYPT is accepted, or the error NOKEY is recorded. -/
theorem offerDecrypt_goesOn (s : State) : GoesOn (offerDecrypt s) := by
  cases keyed : s.ksv with
  | true => exact ⟨_, offerDecrypt_eq_next.mpr (.inl ⟨keyed, rfl⟩)⟩
  | false => exact ⟨_, offerDecrypt_eq_next.mpr (.inr ⟨keyed, rfl⟩)⟩

/-- R179, R180: a block read returns the register or a free value. -/
theorem readBlock_goesOn (s : State) (reg : Word) : GoesOn (readBlock s reg) := by
  by_cases idle : s.op = .none
  · exact ⟨_, readBlock_eq_next.mpr (.inl ⟨idle, rfl⟩)⟩
  · exact ⟨_, readBlock_eq_next.mpr (.inr ⟨idle, rfl⟩)⟩

/-- R172: a write to CMD goes on because the command it carries does. -/
theorem execWrCmd_goesOn (w : Word) (s : State) : GoesOn (execWrCmd w s) := by
  obtain rfl | rfl | rfl | rfl | illegal := command_word_cases w
  · exact execWrCmd_zero s ▸ whenIdle_goesOn ⟨_, rfl⟩ s
  · exact execWrCmd_one s ▸ whenIdle_goesOn ⟨_, rfl⟩ s
  · exact execWrCmd_two s ▸ whenIdle_goesOn (offerDecrypt_goesOn s) s
  · exact execWrCmd_three s ▸ whenIdle_goesOn ⟨_, rfl⟩ s
  · exact execWrCmd_illegal illegal s ▸ whenIdle_goesOn ⟨_, rfl⟩ s

theorem execWrStatus_goesOn (w : Word) (s : State) : GoesOn (execWrStatus w s) := by
  unfold execWrStatus
  split <;> exact ⟨_, rfl⟩

/-- R200: no host access stops. -/
theorem exec_goesOn (i : Instr) (s : State) : GoesOn (exec i s) := by
  cases i with
  | nop | keygen | zeroize | illegalCmd | wrKey | wrBlkH | wrBlkL => exact whenIdle_goesOn ⟨_, rfl⟩ s
  | decrypt => exact whenIdle_goesOn (offerDecrypt_goesOn s) s
  | wrCmd w => exact execWrCmd_goesOn w s
  | wrStatus w => exact execWrStatus_goesOn w s
  | rdBlkH => exact readBlock_goesOn s s.blkH
  | rdBlkL => exact readBlock_goesOn s s.blkL
  | rdCmd | rdStatus | rdKey | rsvAccess | badAccess => exact ⟨_, rfl⟩

/-! ### Completions and steps -/

/-- R140: DECRYPT is pending only with a keystream, whose words are too narrow to form an index outside the table. -/
theorem completeOp_goesOn {s : State} (h : s.Sound) : GoesOn (completeOp s) := by
  cases hc : completeOp s with
  | next t => exact ⟨t, rfl⟩
  | fault f =>
    obtain ⟨pending, noBlock⟩ := completeOp_eq_fault.mp hc
    have narrow := keystreamWordsAreTwentyBits.2 s h (h.decryptPending pending)
    have answers := decryptBlock_isSome Config.sbox narrow s.blkH s.blkL
    simp [noBlock] at answers
  | refused q => exact absurd hc (completeOp_ne_refused s q)

theorem step_goesOn {s : State} (h : s.Sound) : GoesOn (step s) := by
  cases hs : s.schedule with
  | nil =>
    rw [step, takeStep_nil hs]
    exact completeOp_goesOn h
  | cons e rest =>
    rw [step, takeStep_cons hs]
    cases e with
    | access a => exact exec_goesOn _ _
    | complete => exact completeOp_goesOn { h with }
    | reset => exact ⟨_, rfl⟩

/-- Settles O56: a sound state has a next state, which is sound again, so a run goes on for any number of steps. -/
theorem noRunFromASoundStateStops : Obligations.NoRunFromASoundStateStops := by
  intro n
  induction n with
  | zero => exact fun s h => ⟨s, run_zero s, h⟩
  | succ n ih =>
    intro s h
    obtain ⟨s', hstep⟩ := step_goesOn h
    rw [run_succ_of_next n hstep]
    exact ih s' (stepKeepsTheStateSound s s' h hstep)

end Sys2Proof.Machine
end

section
/-! PROOFS. The round function (41_round_function.md R131 to R140): the bit maps of its scrambles, its operands bit by bit,
the entries its lookup tree reads, and when it has no value. -/

namespace Sys2Proof.Machine

/-! ### Stretches of a word, zero-extended -/

/-- A stretch of n bits that is shifted down and masked. -/
theorem ushiftRight_and_mask_eq (x : Word) (s : Nat) {n : Nat} (hn : n ≤ 32) :
    (x >>> s) &&& BitVec.ofNat 32 (2 ^ n - 1) = (x.extractLsb' s n).setWidth 32 := by
  have mask_fits : 2 ^ n - 1 < 2 ^ 32 :=
    (Nat.sub_one_lt (Nat.two_pow_pos n).ne').trans_le (Nat.pow_le_pow_right (by decide) hn)
  apply BitVec.eq_of_toNat_eq
  rw [BitVec.toNat_and, BitVec.toNat_ushiftRight, BitVec.toNat_ofNat, Nat.mod_eq_of_lt mask_fits,
    Nat.and_two_pow_sub_one_eq_mod, BitVec.toNat_setWidth_of_le hn, BitVec.extractLsb'_toNat]

theorem and_tenBitMask_eq (x : Word) : x &&& 0x3FF = (x.extractLsb' 0 10).setWidth 32 :=
  x.ushiftRight_zero ▸ ushiftRight_and_mask_eq x 0 (n := 10) (by decide)

/-- A mask that stands k bits up selects what the mask itself selects of the word shifted k bits down. -/
theorem and_shiftLeft_mask_eq (x m : Word) (k : Nat) : x &&& (m <<< k) = ((x >>> k) &&& m) <<< k := by
  rw [BitVec.shiftLeft_and_distrib, BitVec.shiftLeft_ushiftRight, BitVec.and_assoc, ← BitVec.shiftLeft_and_distrib,
    BitVec.allOnes_and]

/-- A word of n + s bits shifted down by s needs no mask. -/
theorem ushiftRight_eq_of_lt {x : Word} {n s : Nat} (hn : n ≤ 32) (hx : x.toNat < 2 ^ (n + s)) :
    x >>> s = (x.extractLsb' s n).setWidth 32 := by
  have narrow : x.toNat >>> s < 2 ^ n := by
    rwa [Nat.shiftRight_eq_div_pow, Nat.div_lt_iff_lt_mul (Nat.two_pow_pos s), ← Nat.pow_add]
  apply BitVec.eq_of_toNat_eq
  rw [BitVec.toNat_ushiftRight, BitVec.toNat_setWidth_of_le hn, BitVec.extractLsb'_toNat, Nat.mod_eq_of_lt narrow]

theorem setWidth_shiftLeft_toNat {n k : Nat} (fits : n + k ≤ 32) (e : BitVec n) :
    ((e.setWidth 32) <<< k).toNat = e.toNat <<< k := by
  have no_overflow : e.toNat <<< k < 2 ^ 32 :=
    (Nat.shiftLeft_lt e.isLt).trans_le (Nat.pow_le_pow_right (by decide) fits)
  rw [BitVec.toNat_shiftLeft, BitVec.toNat_setWidth_of_le (by omega), Nat.mod_eq_of_lt no_overflow]

/-! ### The scrambles (R131, R132) -/

theorem scramble1_fields (x : Word) :
    scramble1 x = (x.extractLsb' 16 10).setWidth 32 ||| (x.extractLsb' 0 2).setWidth 32 <<< 18 |||
      (x.extractLsb' 24 8).setWidth 32 <<< 10 := by
  have two : x &&& 3 = (x.extractLsb' 0 2).setWidth 32 :=
    x.ushiftRight_zero ▸ ushiftRight_and_mask_eq x 0 (n := 2) (by decide)
  rw [← ushiftRight_and_mask_eq x 16 (by decide), ← two, ← ushiftRight_eq_of_lt (by decide) x.isLt]
  rfl

theorem scramble2_fields (x : Word) :
    scramble2 x = (x.extractLsb' 0 10).setWidth 32 ||| (x.extractLsb' 8 10).setWidth 32 <<< 10 := by
  rw [← and_tenBitMask_eq, ← ushiftRight_and_mask_eq x 8 (by decide), BitVec.shiftLeft_add _ 8 2,
    ← and_shiftLeft_mask_eq]
  rfl

theorem scramble1_eq_append (x : Word) :
    scramble1 x = 0#12 ++ (x.extractLsb' 0 2 ++ (x.extractLsb' 24 8 ++ x.extractLsb' 16 10)) := by
  apply BitVec.eq_of_toNat_eq
  rw [scramble1_fields, BitVec.toNat_or, BitVec.toNat_or, setWidth_shiftLeft_toNat (by decide),
    setWidth_shiftLeft_toNat (by decide), BitVec.toNat_setWidth_of_le (by decide)]
  simp only [BitVec.toNat_append, BitVec.toNat_ofNat, Nat.zero_mod, Nat.zero_shiftLeft, Nat.zero_or]
  rw [Nat.or_assoc, Nat.or_comm, Nat.or_assoc]

theorem scramble2_eq_append (x : Word) : scramble2 x = 0#12 ++ (x.extractLsb' 8 10 ++ x.extractLsb' 0 10) := by
  apply BitVec.eq_of_toNat_eq
  rw [scramble2_fields, BitVec.toNat_or, setWidth_shiftLeft_toNat (by decide),
    BitVec.toNat_setWidth_of_le (by decide)]
  simp only [BitVec.toNat_append, BitVec.toNat_ofNat, Nat.zero_mod, Nat.zero_shiftLeft, Nat.zero_or]
  exact Nat.or_comm _ _

/-- Settles O45: each term of a scramble's formula is one stretch of its bit map. -/
theorem scramblesAreTheirBitMaps : Obligations.ScramblesAreTheirBitMaps :=
  fun x => ⟨scramble1_eq_append x, scramble2_eq_append x⟩

/-! ### The operands (R133 to R135) -/

/-- R135: XORing a value with the selected difference of two values swaps it for the other one. -/
theorem xor_selected_difference (k a b : Bool) : ((k && (a ^^ b)) ^^ b) = bif k then a else b := by
  cases k with
  | false => rw [Bool.false_and, Bool.false_xor, cond_false]
  | true => rw [Bool.true_and, Bool.xor_assoc, Bool.xor_self, Bool.xor_false, cond_true]

theorem operand1_getLsbD (x k1 k2 : Word) (b : Nat) :
    (operand1 x k1 k2).getLsbD b =
      ((bif k2.getLsbD b then (scramble1 x).getLsbD b else (scramble2 x).getLsbD b) ^^ k1.getLsbD b) := by
  rw [operand1, swapMask, BitVec.getLsbD_xor, BitVec.getLsbD_xor, BitVec.getLsbD_and, BitVec.getLsbD_xor,
    xor_selected_difference]

theorem operand2_getLsbD (x k0 k2 : Word) (b : Nat) :
    (operand2 x k0 k2).getLsbD b =
      ((bif k2.getLsbD b then (scramble2 x).getLsbD b else (scramble1 x).getLsbD b) ^^ k0.getLsbD b) := by
  rw [operand2, swapMask, BitVec.xor_comm (scramble1 x), BitVec.getLsbD_xor, BitVec.getLsbD_xor, BitVec.getLsbD_and,
    BitVec.getLsbD_xor, xor_selected_difference]

/-- Settles O46: both operands are the multiplexer, at either value of the selecting bit. -/
theorem operandsAreAPerBitMultiplexer : Obligations.OperandsAreAPerBitMultiplexer := by
  intro x k0 k1 k2 b
  rw [operand1_getLsbD, operand2_getLsbD]
  cases k2.getLsbD b with
  | true => exact ⟨fun _ => ⟨rfl, rfl⟩, nofun⟩
  | false => exact ⟨nofun, fun _ => ⟨rfl, rfl⟩⟩

/-! ### The four entries (R136, R138, R140) -/

theorem sboxRead_toNat (sbox : SboxTable) (i : SboxIndex) : sboxRead sbox i.toNat = some (sbox i) := by
  rw [sboxRead_of_lt sbox i.isLt, BitVec.ofNat_toNat, BitVec.setWidth_eq]

/-- R56: an entry's 10 bits below the 2 bits of its region are its index. -/
theorem entry_or_region_toNat (r : BitVec 2) (e : BitVec 10) :
    (e.setWidth 32 ||| r.setWidth 32 <<< 10).toNat = (r ++ e).toNat := by
  rw [BitVec.toNat_or, setWidth_shiftLeft_toNat (by decide), BitVec.toNat_setWidth_of_le (by decide),
    BitVec.toNat_append, Nat.or_comm]

theorem indexA_eq (t : Word) : indexA t = (3#2 ++ t.extractLsb' 0 10).toNat := by
  rw [indexA, and_tenBitMask_eq]
  exact entry_or_region_toNat 3 _

theorem indexB_eq (t : Word) : indexB t = (1#2 ++ t.extractLsb' 0 10).toNat := by
  rw [indexB, and_tenBitMask_eq]
  exact entry_or_region_toNat 1 _

theorem indexC_eq {t : Word} (h : t.toNat < 2 ^ 20) : indexC t = (2#2 ++ t.extractLsb' 10 10).toNat := by
  rw [indexC, ushiftRight_eq_of_lt (n := 10) (by decide) h]
  exact entry_or_region_toNat 2 _

theorem indexD_eq {t : Word} (h : t.toNat < 2 ^ 20) : indexD t = (0#2 ++ t.extractLsb' 10 10).toNat := by
  rw [indexD, ushiftRight_eq_of_lt (n := 10) (by decide) h, ← BitVec.or_zero (x := BitVec.setWidth _ _)]
  exact entry_or_region_toNat 0 _

/-- Settles O47: operands below 2 ^ 20 make every index a region and a 10-bit field, which is always in the table. -/
theorem roundFunctionReadsOneEntryPerRegion : Obligations.RoundFunctionReadsOneEntryPerRegion := by
  intro sbox x k0 k1 k2 h0 h1
  simp only [roundF, lookupTree, indexA_eq, indexB_eq, indexC_eq (operand1_lt h1), indexD_eq (operand2_lt h0),
    sboxRead_toNat]

/-! ### The model fault (R137) -/

/-- Ports A and B are masked, so only port C or port D can leave the table. -/
theorem lookupTree_eq_none {sbox : SboxTable} {t1 t2 : Word} :
    lookupTree sbox t1 t2 = none ↔ 4096 ≤ indexC t1 ∨ 4096 ≤ indexD t2 where
  mp h := by
    by_contra! inside
    simp [lookupTree_of_lt sbox inside.1 inside.2] at h
  mpr h := by
    obtain hc | hd := h
    · simp [lookupTree, sboxRead_eq_none.mpr hc]
    · simp [lookupTree, sboxRead_eq_none.mpr hd]

theorem le_indexD_iff {t : Word} : 4096 ≤ indexD t ↔ 2 ^ 22 ≤ t.toNat := by
  rw [indexD, BitVec.toNat_ushiftRight, Nat.shiftRight_eq_div_pow]
  omega

/-- The region number of port C is itself below 2 ^ 12, so it moves no index out of the table or into it. -/
theorem le_indexC_iff {t : Word} : 4096 ≤ indexC t ↔ 2 ^ 22 ≤ t.toNat := by
  have region : indexC t < 2 ^ 12 ↔ indexD t < 2 ^ 12 := by
    rw [indexC, BitVec.toNat_or]
    exact ⟨Nat.left_le_or.trans_lt, fun h => Nat.or_lt_two_pow h (by decide)⟩
  rw [← le_indexD_iff, ← not_lt, ← not_lt]
  exact not_congr region

theorem xor_lt_two_pow_iff {m k n : Nat} (hm : m < 2 ^ n) : m ^^^ k < 2 ^ n ↔ k < 2 ^ n where
  mp h := by simpa only [Nat.xor_xor_cancel_left] using Nat.xor_lt_two_pow hm h
  mpr h := Nat.xor_lt_two_pow hm h

/-- R134: what is XORed with the whitening key is below 2 ^ 20, so the bits above are the key's own. -/
theorem le_operand1_iff {x k1 k2 : Word} : 2 ^ 22 ≤ (operand1 x k1 k2).toNat ↔ 2 ^ 22 ≤ k1.toNat := by
  have scrambled : (swapMask x k2 ^^^ scramble2 x).toNat < 2 ^ 22 := by
    rw [BitVec.toNat_xor]
    exact (Nat.xor_lt_two_pow (swapMask_lt x k2) (scramble2_lt x)).trans (by decide)
  rw [operand1, BitVec.toNat_xor, ← not_lt, ← not_lt, xor_lt_two_pow_iff scrambled]

theorem le_operand2_iff {x k0 k2 : Word} : 2 ^ 22 ≤ (operand2 x k0 k2).toNat ↔ 2 ^ 22 ≤ k0.toNat := by
  have scrambled : (swapMask x k2 ^^^ scramble1 x).toNat < 2 ^ 22 := by
    rw [BitVec.toNat_xor]
    exact (Nat.xor_lt_two_pow (swapMask_lt x k2) (scramble1_lt x)).trans (by decide)
  rw [operand2, BitVec.toNat_xor, ← not_lt, ← not_lt, xor_lt_two_pow_iff scrambled]

/-- Settles O48: port C is out of the table when sk[1] is wide, port D when sk[0] is. -/
theorem roundFunctionFaultsOnWideSubkeysOnly : Obligations.RoundFunctionFaultsOnWideSubkeysOnly := by
  intro sbox x k0 k1 k2
  rw [roundF, lookupTree_eq_none, le_indexC_iff, le_indexD_iff, le_operand1_iff, le_operand2_iff, or_comm]

end Sys2Proof.Machine
end

section
/-! PROOFS. Block decryption (42_block_decrypt.md R150 to R159): DecryptBlock as the chain of its 16 half-rounds, each of which
can be undone; what it does under the zero table; and the DECRYPT command that runs it. -/

namespace Sys2Proof.Machine

/-! ### A cipher round as two half-rounds (R151 to R153) -/

/-- R151: word j of a cipher round's slice, counted from the start of KS. -/
theorem toList_getD_sliceOffset (ks : Keystream) (c : Fin 8) (j : Fin 6) :
    ks.toList.getD (sliceOffset c + j) 0 = sliceWord ks c j := by
  have inside : sliceOffset c + j < ks.toList.length := by
    rw [Vector.length_toList]
    exact sliceOffset_lt c j
  rw [List.getD_eq_getElem _ _ inside, Vector.getElem_toList, sliceWord]

section
variable {sbox : SboxTable} {ks : Keystream} {c : Fin 8} {cs : List (Fin 8)}

/-- R152, R153: F of the right half goes into the left one, then F of the new left half into the right one. -/
theorem cipherRound_eq_some_iff_halfRounds {l r l' r' : Word} :
    cipherRound sbox ks (l, r) c = some (l', r') ↔ ∃ f g : Word,
      roundF sbox r (sliceWord ks c 3) (sliceWord ks c 4) (sliceWord ks c 5) = some f ∧ l' = l ^^^ f ∧
      roundF sbox l' (sliceWord ks c 0) (sliceWord ks c 1) (sliceWord ks c 2) = some g ∧ r' = r ^^^ g := by
  simp only [cipherRound_eq_some, firstHalf, secondHalf, Option.map_eq_some_iff]
  constructor
  · rintro ⟨⟨f, hf, rfl⟩, g, hg, rfl⟩
    exact ⟨f, g, hf, rfl, hg, rfl⟩
  · rintro ⟨f, g, hf, rfl, hg, rfl⟩
    exact ⟨⟨f, hf, rfl⟩, g, hg, rfl⟩

/-! ### Cipher rounds in sequence (R154) -/

theorem cipherRounds_cons_eq_some {lr lr' : Word × Word} :
    cipherRounds sbox ks lr (c :: cs) = some lr' ↔
      ∃ mid, cipherRound sbox ks lr c = some mid ∧ cipherRounds sbox ks mid cs = some lr' := by
  cases h : cipherRound sbox ks lr c <;> simp [cipherRounds, h]

/-- The sequence that starts with `a` and goes on as `s`. -/
def startingWith (a : Word) (s : Nat → Word) : Nat → Word
  | 0 => a
  | n + 1 => s n

/-- R154: rounds answer when there are sequences of halves in which each round leads from its own halves to the next ones. -/
theorem cipherRounds_eq_some {l₀ r₀ : Word} {lr' : Word × Word} :
    cipherRounds sbox ks (l₀, r₀) cs = some lr' ↔ ∃ l r : Nat → Word, l 0 = l₀ ∧ r 0 = r₀ ∧
      (∀ i (h : i < cs.length), cipherRound sbox ks (l i, r i) cs[i] = some (l (i + 1), r (i + 1))) ∧
      lr' = (l cs.length, r cs.length) := by
  induction cs generalizing l₀ r₀ with
  | nil =>
    constructor
    · intro h
      cases h
      exact ⟨fun _ => l₀, fun _ => r₀, rfl, rfl, nofun, rfl⟩
    · rintro ⟨l, r, rfl, rfl, -, rfl⟩
      rfl
  | cons c cs ih =>
    rw [cipherRounds_cons_eq_some]
    constructor
    · rintro ⟨⟨l₁, r₁⟩, first, later⟩
      obtain ⟨l, r, rfl, rfl, chain, rfl⟩ := ih.mp later
      refine ⟨startingWith l₀ l, startingWith r₀ r, rfl, rfl, fun i hi => ?_, rfl⟩
      cases i with
      | zero => exact first
      | succ i => exact chain i (Nat.lt_of_succ_lt_succ hi)
    · rintro ⟨l, r, rfl, rfl, chain, rfl⟩
      exact ⟨_, chain 0 (Nat.zero_lt_succ _), ih.mpr ⟨fun i => l (i + 1), fun i => r (i + 1), rfl, rfl,
        fun i hi => chain (i + 1) (Nat.succ_lt_succ hi), rfl⟩⟩

/-! ### DecryptBlock (R150, R155, R156) -/

/-- R155: the halves the last round leaves are answered in the other order. -/
theorem decryptBlock_eq_some {hi lo : Word} {p : Word × Word} :
    decryptBlock sbox hi lo ks = some p ↔ cipherRounds sbox ks (hi, lo) (List.finRange 8) = some p.swap := by
  have rounds : List.finRange 8 = [0, 1, 2, 3, 4, 5, 6, 7] := by decide
  rw [decryptBlock, rounds, Option.map_eq_some_iff]
  constructor
  · rintro ⟨lr, h, rfl⟩
    exact h
  · exact fun h => ⟨p.swap, h, rfl⟩

end

/-- Settles O49: the rounds chain the halves, and each round is two half-rounds on its slice of KS. -/
theorem decryptBlockIsTheHalfRoundChain : Obligations.DecryptBlockIsTheHalfRoundChain := by
  intro sbox hi lo ks p word
  rw [decryptBlock_eq_some, cipherRounds_eq_some]
  simp only [List.length_finRange, List.getElem_finRange, Fin.cast_mk]
  refine exists_congr fun l => exists_congr fun r => and_congr_right' (and_congr_right' ?_)
  refine and_congr (forall₂_congr fun c hc => ?_) Prod.swap_eq_iff_eq_swap
  rw [cipherRound_eq_some_iff_halfRounds]
  simp only [← toList_getD_sliceOffset]
  rfl

/-! ### Under the zero table (R157) -/

/-- R138: an OR of four zero entries is zero. -/
theorem roundF_zero_table (x : Word) {k0 k1 : Word} (k2 : Word) (h0 : k0.toNat < 2 ^ 20) (h1 : k1.toNat < 2 ^ 20) :
    roundF (fun _ => 0) x k0 k1 k2 = some 0 :=
  roundFunctionReadsOneEntryPerRegion (fun _ => 0) x k0 k1 k2 h0 h1

section
variable {ks : Keystream} (narrow : ∀ j : Fin 48, ks[j].toNat < 2 ^ 20)
include narrow

theorem cipherRound_zero_table (lr : Word × Word) (c : Fin 8) : cipherRound (fun _ => 0) ks lr c = some lr := by
  have word_lt : ∀ j : Fin 6, (sliceWord ks c j).toNat < 2 ^ 20 := fun j => narrow ⟨_, sliceOffset_lt c j⟩
  exact cipherRound_eq_some_iff_halfRounds.mpr
    ⟨0, 0, roundF_zero_table _ _ (word_lt 3) (word_lt 4), BitVec.xor_zero.symm,
      roundF_zero_table _ _ (word_lt 0) (word_lt 1), BitVec.xor_zero.symm⟩

theorem cipherRounds_zero_table (lr : Word × Word) (cs : List (Fin 8)) :
    cipherRounds (fun _ => 0) ks lr cs = some lr := by
  induction cs with
  | nil => rfl
  | cons c cs ih => exact cipherRounds_cons_eq_some.mpr ⟨lr, cipherRound_zero_table narrow lr c, ih⟩

end

/-- Settles O50: every round leaves both halves alone, and the swap of the output is what remains. -/
theorem zeroTableOnlySwapsTheHalves : Obligations.ZeroTableOnlySwapsTheHalves :=
  fun hi lo key => decryptBlock_eq_some.mpr (cipherRounds_zero_table (keySchedule_lt key) (hi, lo) _)

/-! ### Decryption loses nothing (R152 to R155, R159) -/

section
variable {sbox : SboxTable} {ks : Keystream}

/-- The right half before a round comes back from the new left half, which F was applied to; then the left half does. -/
theorem cipherRound_left_unique {c : Fin 8} {lr₁ lr₂ lr' : Word × Word} (h₁ : cipherRound sbox ks lr₁ c = some lr')
    (h₂ : cipherRound sbox ks lr₂ c = some lr') : lr₁ = lr₂ := by
  obtain ⟨f₁, g₁, hf₁, hl₁, hg₁, hr₁⟩ := cipherRound_eq_some_iff_halfRounds.mp h₁
  obtain ⟨f₂, g₂, hf₂, hl₂, hg₂, hr₂⟩ := cipherRound_eq_some_iff_halfRounds.mp h₂
  obtain rfl : g₁ = g₂ := Option.some.inj (hg₁.symm.trans hg₂)
  have same_right : lr₁.2 = lr₂.2 := (BitVec.xor_left_inj g₁).mp (hr₁.symm.trans hr₂)
  rw [same_right] at hf₁
  obtain rfl : f₁ = f₂ := Option.some.inj (hf₁.symm.trans hf₂)
  have same_left : lr₁.1 = lr₂.1 := (BitVec.xor_left_inj f₁).mp (hl₁.symm.trans hl₂)
  exact Prod.ext same_left same_right

theorem cipherRounds_left_unique {cs : List (Fin 8)} {lr₁ lr₂ lr' : Word × Word}
    (h₁ : cipherRounds sbox ks lr₁ cs = some lr') (h₂ : cipherRounds sbox ks lr₂ cs = some lr') : lr₁ = lr₂ := by
  induction cs generalizing lr₁ lr₂ with
  | nil => exact Option.some.inj (h₁.trans h₂.symm)
  | cons c cs ih =>
    obtain ⟨mid₁, first₁, later₁⟩ := cipherRounds_cons_eq_some.mp h₁
    obtain ⟨mid₂, first₂, later₂⟩ := cipherRounds_cons_eq_some.mp h₂
    rw [ih later₁ later₂] at first₁
    exact cipherRound_left_unique first₁ first₂

theorem decryptBlock_left_unique {b₁ b₂ p : Word × Word} (h₁ : decryptBlock sbox b₁.1 b₁.2 ks = some p)
    (h₂ : decryptBlock sbox b₂.1 b₂.2 ks = some p) : b₁ = b₂ :=
  cipherRounds_left_unique (decryptBlock_eq_some.mp h₁) (decryptBlock_eq_some.mp h₂)

end

/-- Settles O51: every block has a plaintext and no two have the same one, so on the finitely many blocks this is a
permutation. -/
theorem decryptionPermutesTheBlocks : Obligations.DecryptionPermutesTheBlocks := by
  intro sbox key
  have answers : ∀ b : Word × Word, ∃ p, decryptBlock sbox b.1 b.2 (keySchedule key) = some p := fun b =>
    Option.isSome_iff_exists.mp (decryptBlock_isSome sbox (keySchedule_lt key) b.1 b.2)
  choose plain hplain using answers
  have injective : Function.Injective plain := fun b₁ b₂ same =>
    decryptBlock_left_unique (hplain b₁) (same ▸ hplain b₂)
  exact ⟨Equiv.ofBijective plain (Finite.injective_iff_bijective.mp injective), hplain⟩

/-! ### The command (R157, R158, R173) -/

/-- R173: with DECRYPT pending, a completion that goes on writes the block that DecryptBlock answers. -/
theorem step_completes_decrypt {s t : State} {rest : List Event} (next : s.schedule = .complete :: rest)
    (pending : s.op = .decrypt) :
    step s = .next t ↔ ∃ b, decryptBlock Config.sbox s.blkH s.blkL s.ks = some b ∧
      t = { s with schedule := rest }.decryptDone b := by
  rw [step, takeStep_cons next, runEvent, completeOp_eq_next]
  simp [pending]

/-- Settles O53: both completions write what the one DecryptBlock answers. -/
theorem plaintextDependsOnBlockAndKeystreamAlone : Obligations.PlaintextDependsOnBlockAndKeystreamAlone := by
  intro s s' t rest rest' next next' pending pending' sameH sameL sameKs goesOn
  obtain ⟨b, answer, rfl⟩ := (step_completes_decrypt next pending).mp goesOn
  rw [sameH, sameL, sameKs] at answer
  exact ⟨_, (step_completes_decrypt next' pending').mpr ⟨b, answer, rfl⟩, rfl, rfl⟩

/-- Settles O12: the busy check passes, and KSV decides. -/
theorem decryptIsAcceptedWithAKeystream : Obligations.DecryptIsAcceptedWithAKeystream := by
  intro s idle
  have offered : exec .decrypt s = offerDecrypt s := whenIdle_of_idle idle _
  rw [offered]
  exact ⟨fun keyed => offerDecrypt_eq_next.mpr (.inl ⟨keyed, rfl⟩),
    fun unkeyed => offerDecrypt_eq_next.mpr (.inr ⟨unkeyed, rfl⟩)⟩

end Sys2Proof.Machine
end

section
/-! PROOFS. The register accesses and the commands of the host (43_control.md R170 to R184), each on an idle and on a busy
unit, and the word that RD_STATUS returns (10_state.md R26 to R31). -/

namespace Sys2Proof.Machine

/-! ### NOP, ZEROIZE and the writes that need an idle unit (R170, R171, R178, R181, R182) -/

/-- A write behind the busy check: it does its work on an idle unit, and is rejected with BUSY on a busy one. -/
theorem whenIdle_finishWrite (s u : State) :
    (s.op = .none → whenIdle s (finishWrite u) = .next (u.returning 0)) ∧
      (s.op ≠ .none → whenIdle s (finishWrite u) = .next ((s.recordError .busy).returning 0)) :=
  ⟨fun idle => whenIdle_of_idle idle _, fun busy => whenIdle_of_busy busy _⟩

/-- Settles O10: behind the busy check NOP is a write with nothing to write. -/
theorem nopChangesNothing : Obligations.NopChangesNothing :=
  ⟨rfl, fun s => whenIdle_finishWrite s s⟩

/-- Settles O13: the busy check passes, and acceptance is the rest. -/
theorem zeroizeIsAcceptedWhenIdle : Obligations.ZeroizeIsAcceptedWhenIdle :=
  fun s idle => whenIdle_of_idle idle (finishWrite s.acceptZeroize)

/-- Settles O19: behind the busy check the write updates KEY alone. -/
theorem keyWriteStoresTheWord : Obligations.KeyWriteStoresTheWord :=
  ⟨fun _ => rfl, fun w s => whenIdle_finishWrite s { s with key := w }⟩

/-- Settles O20: behind the busy check each write updates its own half of the block. -/
theorem blockWritesStoreTheWord : Obligations.BlockWritesStoreTheWord := by
  refine ⟨fun _ => ⟨rfl, rfl⟩, fun w s => ?_⟩
  obtain ⟨idleH, busyH⟩ := whenIdle_finishWrite s { s with blkH := w }
  obtain ⟨idleL, busyL⟩ := whenIdle_finishWrite s { s with blkL := w }
  exact ⟨fun idle => ⟨idleH idle, idleL idle⟩, fun busy => ⟨busyH busy, busyL busy⟩⟩

/-! ### Reads of CMD, KEY and the block (R174, R177, R179, R180) -/

/-- Settles O16: neither read looks at the state. -/
theorem commandAndKeyReadAsZero : Obligations.CommandAndKeyReadAsZero :=
  ⟨rfl, rfl, fun s => ⟨finishRead_eq s 0, finishRead_eq s 0⟩⟩

theorem readBlock_of_idle {s : State} (idle : s.op = .none) (reg : Word) :
    readBlock s reg = .next (s.returning reg) :=
  readBlock_eq_next.mpr (.inl ⟨idle, rfl⟩)

theorem readBlock_of_busy {s : State} (busy : s.op ≠ .none) (reg : Word) :
    readBlock s reg = .next ({ s with draws := s.draws + 1 }.returning (Config.drawBits 32 s.draws)) :=
  readBlock_eq_next.mpr (.inr ⟨busy, rfl⟩)

/-- Settles O21: an idle unit's read returns the register, a busy one's the next free value. -/
theorem blockReadsReturnTheBlockWhenIdle : Obligations.BlockReadsReturnTheBlockWhenIdle := fun s =>
  ⟨fun idle => ⟨readBlock_of_idle idle s.blkH, readBlock_of_idle idle s.blkL⟩,
   fun busy => ⟨⟨_, readBlock_of_busy busy s.blkH⟩, ⟨_, readBlock_of_busy busy s.blkL⟩⟩⟩

/-! ### STATUS (R26 to R31, R175, R176, R201) -/

theorem toNat_append_eq_add {m n : Nat} (x : BitVec m) (y : BitVec n) :
    (x ++ y).toNat = 2 ^ n * x.toNat + y.toNat := by
  rw [BitVec.toNat_append, ← Nat.shiftLeft_add_eq_or_of_lt y.isLt, Nat.shiftLeft_eq, Nat.mul_comm]

theorem flagWord_eq_setWidth (b : Bool) : flagWord b = (BitVec.ofBool b).setWidth 32 := by
  cases b <;> rfl

/-- R26: the fields of STATUS side by side, ERRCODE at the top. -/
theorem State.statusWord_toNat_eq_append (s : State) :
    s.statusWord.toNat = (s.errCode.bits ++ (BitVec.ofBool s.eovf ++ (BitVec.ofBool s.err ++
      (BitVec.ofBool s.ksv ++ BitVec.ofBool s.busy)))).toNat := by
  simp only [statusWord, flagWord_eq_setWidth, BitVec.toNat_or, BitVec.toNat_append]
  rw [setWidth_shiftLeft_toNat (by decide), setWidth_shiftLeft_toNat (by decide),
    setWidth_shiftLeft_toNat (by decide), setWidth_shiftLeft_toNat (by decide),
    BitVec.toNat_setWidth_of_le (by decide)]
  simp only [Nat.or_assoc]

theorem State.statusWord_toNat (s : State) :
    s.statusWord.toNat =
      16 * s.errCode.bits.toNat + 8 * s.eovf.toNat + 4 * s.err.toNat + 2 * s.ksv.toNat + s.busy.toNat := by
  rw [statusWord_toNat_eq_append]
  simp only [toNat_append_eq_add, BitVec.toNat_ofBool]
  omega

/-- R27: BUSY is 1 exactly while an operation is pending. -/
theorem State.busy_toNat (s : State) : s.busy.toNat = if s.op = .none then 0 else 1 := by
  cases h : s.op <;> simp [State.busy, h]

/-- Settles O17: the word is the sum of its fields at their places, and ERRCODE holds the code of R201. -/
theorem statusReadsItsFields : Obligations.StatusReadsItsFields := by
  refine ⟨rfl, fun s => ⟨s.statusWord, finishRead_eq s _, ?_⟩⟩
  rw [s.statusWord_toNat, s.busy_toNat]
  cases s.errCode <;> rfl

theorem clrErr_eq_decide (w : Word) : clrErr w = decide (w.toNat / 4 % 2 = 1) :=
  Nat.testBit_eq_decide_div_mod_eq

/-- Settles O18: CLR_ERR is bit 2 of the word, and it selects between the two outcomes. -/
theorem statusWriteClearsTheErrorRecord : Obligations.StatusWriteClearsTheErrorRecord := by
  refine ⟨fun _ => rfl, fun w s => ⟨fun set => if_pos ?_, fun clear => if_neg ?_⟩⟩
  · simp [clrErr_eq_decide, set]
  · simp [clrErr_eq_decide, clear]

/-! ### The command port (R172) -/

/-- What WriteCMD(w) makes of the state, but for the value it returns (R172). -/
def State.writeCommand (s : State) (w : Word) : State :=
  if s.op ≠ .none then s.recordError .busy
  else if 4 ≤ w.toNat then s.recordError .badCmd
  else if w = 1 then s.acceptKeygen
  else if w = 2 then (if s.ksv then s.acceptDecrypt else s.recordError .noKey)
  else if w = 3 then s.acceptZeroize
  else s

theorem offerDecrypt_eq (s : State) :
    offerDecrypt s = .next ((if s.ksv then s.acceptDecrypt else s.recordError .noKey).returning 0) := by
  unfold offerDecrypt
  split <;> rfl

theorem exec_wrCmd_of_busy (w : Word) {s : State} (busy : s.op ≠ .none) :
    exec (.wrCmd w) s = .next ((s.recordError .busy).returning 0) :=
  if_pos busy

/-- R172: a busy unit rejects every word; on an idle one each legal word runs its command, and the others are illegal. -/
theorem exec_wrCmd_eq_writeCommand (w : Word) (s : State) :
    exec (.wrCmd w) s = .next ((s.writeCommand w).returning 0) := by
  by_cases idle : s.op = .none
  · obtain rfl | rfl | rfl | rfl | illegal := command_word_cases w
    · refine (exec_wrCmd 0 s).trans ((whenIdle_of_idle idle (finishWrite s)).trans ?_)
      simp [State.writeCommand, idle, finishWrite_eq]
    · refine (exec_wrCmd 1 s).trans ((whenIdle_of_idle idle (finishWrite s.acceptKeygen)).trans ?_)
      simp [State.writeCommand, idle, finishWrite_eq]
    · refine (exec_wrCmd 2 s).trans ((whenIdle_of_idle idle (offerDecrypt s)).trans ?_)
      simp [State.writeCommand, idle, offerDecrypt_eq]
    · refine (exec_wrCmd 3 s).trans ((whenIdle_of_idle idle (finishWrite s.acceptZeroize)).trans ?_)
      simp [State.writeCommand, idle, finishWrite_eq]
    · rw [exec_wrCmd, decodeCommand_of_le illegal, exec_illegalCmd_of_idle w idle]
      simp [State.writeCommand, idle, illegal]
  · rw [exec_wrCmd_of_busy w idle, State.writeCommand, if_pos idle]

/-- Settles O15: WriteCMD(w) is what the command port does with w. -/
theorem commandPortFollowsWriteCmd : Obligations.CommandPortFollowsWriteCmd :=
  ⟨rfl, exec_wrCmd_eq_writeCommand⟩

/-! ### Accesses that raise an error (R183, R184) -/

theorem exec_rsvAccess (a : Access) (off : Byte) (s : State) :
    exec (.rsvAccess a off) s = .next ((s.recordError .badAddr).returning 0) :=
  raiseError_eq s .badAddr

theorem exec_badAccess (a : Access) (sz : BitVec 2) (off : Byte) (s : State) :
    exec (.badAccess a sz off) s = .next ((s.recordError .badAcc).returning 0) :=
  raiseError_eq s .badAcc

/-- Settles O22: such a transaction decodes to RSV_ACCESS, which looks at nothing. -/
theorem reservedOffsetsRaiseBadAddr : Obligations.ReservedOffsetsRaiseBadAddr := by
  refine ⟨exec_rsvAccess, fun t s size aligned offset => ?_⟩
  obtain ⟨a, off, decoded⟩ := (decodeAccess_isRsvAccess_iff t).mpr ⟨size, aligned, offset⟩
  rw [hostAccess, decode, decoded]
  exact exec_rsvAccess a off s

/-- Settles O23: such a transaction decodes to BAD_ACCESS, which looks at nothing. -/
theorem illFormedAccessesRaiseBadAcc : Obligations.IllFormedAccessesRaiseBadAcc := by
  refine ⟨exec_badAccess, fun t s illFormed => ?_⟩
  obtain ⟨a, sz, off, decoded⟩ := (decodeAccess_isBadAccess_iff t).mpr illFormed
  rw [hostAccess, decode, decoded]
  exact exec_badAccess a sz off s

end Sys2Proof.Machine
end

section
/-! PROOFS. The step an event makes: a host access is its decoded instruction (43_control.md R185; 20_memory.md R54), a
completion is the completion step of the pending operation (R173). -/

namespace Sys2Proof.Machine

/-- Settles O7: the schedule's first event is the one that runs. -/
theorem stepRunsTheDecodedAccess : Obligations.StepRunsTheDecodedAccess :=
  fun _ _ _ next => takeStep_cons next

section
variable {s : State} {rest : List Event} (next : s.schedule = .complete :: rest)
include next

theorem step_complete : step s = completeOp { s with schedule := rest } :=
  takeStep_cons next

theorem step_completes_keygen (pending : s.op = .keygen) :
    step s = .next { s with schedule := rest }.keygenDone :=
  (step_complete next).trans (completeOp_eq_next.mpr (.inr (.inl ⟨pending, rfl⟩)))

theorem step_completes_zeroize (pending : s.op = .zeroize) :
    step s = .next { s with schedule := rest }.zeroizeDone :=
  (step_complete next).trans (completeOp_eq_next.mpr (.inr (.inr (.inr ⟨pending, rfl⟩))))

/-- R137: without a block from DecryptBlock the completion is the model fault. -/
theorem step_faults_decrypt (pending : s.op = .decrypt)
    (noBlock : decryptBlock Config.sbox s.blkH s.blkL s.ks = none) : step s = .fault .sboxIndexRange :=
  (step_complete next).trans (completeOp_eq_fault.mpr ⟨pending, noBlock⟩)

end

/-- Settles O31: the completion's next state, field by field. -/
theorem keygenCompletionInstallsTheKeystream : Obligations.KeygenCompletionInstallsTheKeystream :=
  fun _ _ next pending => ⟨_, step_completes_keygen next pending,
    rfl, rfl, rfl, rfl, rfl, rfl, rfl, rfl, rfl, rfl, rfl, rfl, rfl⟩

/-- Settles O32: what DecryptBlock answers decides between the next state and the fault. -/
theorem decryptCompletionWritesThePlaintext : Obligations.DecryptCompletionWritesThePlaintext := by
  refine fun s rest next pending => ⟨fun b answer => ?_, step_faults_decrypt next pending⟩
  exact ⟨_, (step_completes_decrypt next pending).mpr ⟨b, answer, rfl⟩,
    rfl, rfl, rfl, rfl, rfl, rfl, rfl, rfl, rfl, rfl, rfl, rfl⟩

/-- Settles O33: the erased keystream is 48 zero words. -/
theorem zeroizeCompletionErasesTheSecrets : Obligations.ZeroizeCompletionErasesTheSecrets :=
  fun _ _ next pending => ⟨Vector.replicate 48 0, fun _ => Vector.getElem_replicate _,
    step_completes_zeroize next pending⟩

end Sys2Proof.Machine
end

section
/-! PROOFS. A clock cycle as events of the untimed CORE (43_control.md R173, R185; 70_reset_and_hazards.md R238): no event looks
at the events still to come, so a cycle's access and completion, put in the schedule, run there as against the clock. -/

namespace Sys2Proof.Machine

/-! ### No event looks at the events still to come (R185) -/

/-- The state with another list of events still to come (log 1). -/
def State.withSchedule (s : State) (events : List Event) : State := { s with schedule := events }

@[simp] theorem State.withSchedule_ksv (s : State) (l : List Event) : (s.withSchedule l).ksv = s.ksv := rfl

/-- An outcome whose next state has another list of events still to come. -/
def rescheduled (l : List Event) (o : Result) : Result := andThen o fun t => .next (t.withSchedule l)

section
variable (s : State) (l : List Event)

theorem whenIdle_withSchedule {k k' : Result} (h : k' = rescheduled l k) :
    whenIdle (s.withSchedule l) k' = rescheduled l (whenIdle s k) := by
  by_cases idle : s.op = .none
  · rw [whenIdle_of_idle idle, whenIdle_of_idle (s := s.withSchedule l) idle, h]
  · rw [whenIdle_of_busy idle, whenIdle_of_busy (s := s.withSchedule l) idle]
    rfl

theorem offerDecrypt_withSchedule : offerDecrypt (s.withSchedule l) = rescheduled l (offerDecrypt s) := by
  rw [offerDecrypt_eq, offerDecrypt_eq, State.withSchedule_ksv]
  cases s.ksv <;> rfl

theorem readBlock_withSchedule (reg : Word) : readBlock (s.withSchedule l) reg = rescheduled l (readBlock s reg) := by
  by_cases idle : s.op = .none
  · rw [readBlock_of_idle idle, readBlock_of_idle (s := s.withSchedule l) idle]
    rfl
  · rw [readBlock_of_busy idle, readBlock_of_busy (s := s.withSchedule l) idle]
    rfl

theorem execWrStatus_withSchedule (w : Word) :
    execWrStatus w (s.withSchedule l) = rescheduled l (execWrStatus w s) := by
  unfold execWrStatus
  split <;> rfl

/-- The command port is left to `exec_withSchedule`, which goes through the command its word stands for. -/
theorem exec_withSchedule_of_ne_wrCmd {i : Instr} (hi : ∀ w, i ≠ .wrCmd w) :
    exec i (s.withSchedule l) = rescheduled l (exec i s) := by
  cases i with
  | wrCmd w => exact absurd rfl (hi w)
  | nop | keygen | zeroize | illegalCmd | wrKey | wrBlkH | wrBlkL => exact whenIdle_withSchedule s l rfl
  | decrypt => exact whenIdle_withSchedule s l (offerDecrypt_withSchedule s l)
  | wrStatus w => exact execWrStatus_withSchedule s l w
  | rdBlkH => exact readBlock_withSchedule s l s.blkH
  | rdBlkL => exact readBlock_withSchedule s l s.blkL
  | rdCmd | rdStatus | rdKey | rsvAccess | badAccess => rfl

theorem decodeCommand_ne_wrCmd (w v : Word) : decodeCommand w ≠ .wrCmd v := by
  unfold decodeCommand
  split_ifs <;> exact nofun

theorem exec_withSchedule (i : Instr) : exec i (s.withSchedule l) = rescheduled l (exec i s) := by
  cases i with
  | wrCmd w =>
    rw [exec_wrCmd, exec_wrCmd]
    exact exec_withSchedule_of_ne_wrCmd s l (decodeCommand_ne_wrCmd w)
  | _ => exact exec_withSchedule_of_ne_wrCmd s l nofun

theorem completeOp_withSchedule : completeOp (s.withSchedule l) = rescheduled l (completeOp s) := by
  cases h : completeOp s with
  | next t =>
    refine completeOp_eq_next.mpr ?_
    obtain ⟨op, rfl⟩ | ⟨op, rfl⟩ | ⟨op, b, answer, rfl⟩ | ⟨op, rfl⟩ := completeOp_eq_next.mp h
    · exact .inl ⟨op, rfl⟩
    · exact .inr (.inl ⟨op, rfl⟩)
    · exact .inr (.inr (.inl ⟨op, b, answer, rfl⟩))
    · exact .inr (.inr (.inr ⟨op, rfl⟩))
  | fault f => exact completeOp_eq_fault.mpr (completeOp_eq_fault (s := s).mp h)
  | refused q => exact absurd h (completeOp_ne_refused s q)

theorem runEvent_withSchedule (e : Event) : runEvent e (s.withSchedule l) = rescheduled l (runEvent e s) := by
  cases e with
  | access t => exact exec_withSchedule s l _
  | complete => exact completeOp_withSchedule s l
  | reset => rfl

end

/-! ### Runs of given events -/

/-- The events in the order given, up to the first fault or refusal. -/
def runEvents : List Event → State → Result
  | [], s => .next s
  | e :: es, s => andThen (runEvent e s) (runEvents es)

theorem runEvents_append {es es' : List Event} {s t u : State} (first : runEvents es s = .next t)
    (later : runEvents es' t = .next u) : runEvents (es ++ es') s = .next u := by
  induction es generalizing s with
  | nil =>
    cases first
    exact later
  | cons e es ih =>
    obtain ⟨m, head, tail⟩ := andThen_eq_next.mp first
    exact andThen_eq_next.mpr ⟨m, head, ih tail⟩

/-- A schedule of these events runs them, one a step. -/
theorem run_withSchedule {es : List Event} {s t : State} (h : runEvents es s = .next t) :
    Host.Core.run Sys2Proof.core es.length (s.withSchedule es) = .next (t.withSchedule []) := by
  induction es generalizing s with
  | nil =>
    cases h
    exact run_zero _
  | cons e es ih =>
    obtain ⟨m, head, tail⟩ := andThen_eq_next.mp h
    have first_step : step (s.withSchedule (e :: es)) = .next (m.withSchedule es) :=
      calc step (s.withSchedule (e :: es)) = runEvent e (s.withSchedule es) := takeStep_cons rfl
        _ = rescheduled es (runEvent e s) := runEvent_withSchedule s es e
        _ = .next (m.withSchedule es) := by rw [head]; rfl
    exact (run_succ_of_next es.length first_step).trans (ih tail)

/-! ### The two halves of a clock cycle (R173) -/

/-- At most `n` events lead the untimed CORE from `s` to `t`. -/
def LeadsWithin (n : Nat) (s t : State) : Prop := ∃ es : List Event, es.length ≤ n ∧ runEvents es s = .next t

section
variable {s t u : State} {n : Nat}

theorem LeadsWithin.refl (n : Nat) (s : State) : LeadsWithin n s s := ⟨[], Nat.zero_le n, rfl⟩

theorem LeadsWithin.of_runEvent {e : Event} (h : runEvent e s = .next t) : LeadsWithin 1 s t :=
  ⟨[e], le_rfl, andThen_eq_next.mpr ⟨t, h, rfl⟩⟩

theorem LeadsWithin.trans {m : Nat} (first : LeadsWithin m s t) (later : LeadsWithin n t u) :
    LeadsWithin (m + n) s u := by
  obtain ⟨es, short, ran⟩ := first
  obtain ⟨es', short', ran'⟩ := later
  exact ⟨es ++ es', List.length_append.trans_le (Nat.add_le_add short short'), runEvents_append ran ran'⟩

end

@[simp] theorem TimedUnit.afterAccess_core (u : TimedUnit) (s : State) : (u.afterAccess s).core = s := by
  unfold afterAccess
  split <;> rfl

section
variable {u u' : TimedUnit}

theorem timedAccess_leads {a : Option Transaction} (h : timedAccess a u = .next u') :
    LeadsWithin 1 u.core u'.core := by
  obtain ⟨-, rfl⟩ | ⟨t, s, -, ran, rfl⟩ := timedAccess_eq_next.mp h
  · exact .refl 1 _
  · rw [TimedUnit.afterAccess_core]
    exact .of_runEvent (e := .access t) ran

theorem timedCompletion_leads (h : timedCompletion u = .next u') : LeadsWithin 1 u.core u'.core := by
  obtain ⟨-, rfl⟩ | ⟨-, s, ran, rfl⟩ := timedCompletion_eq_next.mp h
  · exact .refl 1 _
  · exact .of_runEvent (e := .complete) ran

/-- A cycle without reset is its access and its completion, in the order the cycle chooses (log 9). -/
theorem clockCycle_leads {c : ClockCycle} (running : c.reset = false) (h : clockCycle c u = .next u') :
    LeadsWithin 2 u.core u'.core := by
  simp only [clockCycle, running, Bool.false_eq_true, if_false] at h
  split at h
  · obtain ⟨m, completed, accessed⟩ := andThen_eq_next.mp h
    exact (timedCompletion_leads completed).trans (timedAccess_leads accessed)
  · obtain ⟨m, accessed, completed⟩ := andThen_eq_next.mp h
    exact (timedAccess_leads accessed).trans (timedCompletion_leads completed)

end

/-- Settles O59: the events that the cycle stands for, put in the schedule, lead the CORE to the same state. -/
theorem clockCyclesAreUntimedSteps : Obligations.ClockCyclesAreUntimedSteps := by
  intro c u u' running h
  obtain ⟨es, short, ran⟩ := clockCycle_leads running h
  exact ⟨es, short, run_withSchedule ran⟩

end Sys2Proof.Machine
end

section
/-! PROOFS. The error record (60_exceptions.md R200 to R206): every access completes, what recording an error does and does not
do, which one error an access raises, and that no completion touches the record. -/

namespace Sys2Proof.Machine

/-! ### Recording an error (R200, R202, R203) -/

/-- Settles O9: no access has an outcome other than a next state. -/
theorem everyHostAccessCompletes : Obligations.EveryHostAccessCompletes :=
  exec_goesOn

theorem State.recordError_of_clear {s : State} (clear : s.err = false) (code : ErrCode) :
    s.recordError code = { s with err := true, errCode := code } := by
  simp [State.recordError, clear]

theorem State.recordError_of_err {s : State} (err : s.err = true) (code : ErrCode) :
    s.recordError code = { s with eovf := true } := by
  simp [State.recordError, err]

/-- Settles O24: ERR tells the first error from a later one. -/
theorem firstErrorKeepsItsCode : Obligations.FirstErrorKeepsItsCode :=
  fun _ code => ⟨fun clear => State.recordError_of_clear clear code, fun err => State.recordError_of_err err code⟩

/-- R176, R203: apart from a write to STATUS, the effect that changes the error record is a recorded error and nothing else. -/
theorem HostEffect.record_written {s t : State} {i : Instr} (h : HostEffect s i t) (notStatus : ∀ w, i ≠ .wrStatus w)
    (changed : (t.err, t.eovf, t.errCode) ≠ (s.err, s.eovf, s.errCode)) :
    ∃ code, code ≠ .none ∧ t = (s.recordError code).returning 0 := by
  cases h with
  | error _ code hcode => exact ⟨code, hcode, rfl⟩
  | clear w => exact absurd rfl (notStatus w)
  | _ => exact absurd rfl changed

/-- Settles O25: of the effects of a host access only the recorded error is left. -/
theorem errorsHaveNoOtherEffect : Obligations.ErrorsHaveNoOtherEffect :=
  fun _ _ _ h => (exec_effect h).record_written

/-! ### Completions (R205, R206) -/

theorem completeOp_record_kept {s t : State} (h : completeOp s = .next t) :
    t.op = .none ∧ t.err = s.err ∧ t.eovf = s.eovf ∧ t.errCode = s.errCode := by
  obtain ⟨idle, rfl⟩ | ⟨-, rfl⟩ | ⟨-, b, -, rfl⟩ | ⟨-, rfl⟩ := completeOp_eq_next.mp h
  · exact ⟨idle, rfl, rfl, rfl⟩
  · exact ⟨rfl, rfl, rfl, rfl⟩
  · exact ⟨rfl, rfl, rfl, rfl⟩
  · exact ⟨rfl, rfl, rfl, rfl⟩

/-- Settles O34: with a completion next, the step is the completion step, which touches no error field. -/
theorem completionLeavesTheErrorRecord : Obligations.CompletionLeavesTheErrorRecord :=
  fun s _ rest next h => completeOp_record_kept (s := { s with schedule := rest }) ((step_complete next).symm.trans h)

/-! ### Accesses that raise no error -/

/-- The outcome is a next state with the error record of `s`. -/
def KeepsRecord (s : State) (o : Result) : Prop :=
  ∃ u, o = .next u ∧ u.err = s.err ∧ u.eovf = s.eovf ∧ u.errCode = s.errCode

theorem keepsRecord_finishRead (s : State) (v : Word) : KeepsRecord s (finishRead s v) :=
  ⟨_, finishRead_eq s v, rfl, rfl, rfl⟩

theorem keepsRecord_readBlock (s : State) (reg : Word) : KeepsRecord s (readBlock s reg) := by
  by_cases idle : s.op = .none
  · exact ⟨_, readBlock_of_idle idle reg, rfl, rfl, rfl⟩
  · exact ⟨_, readBlock_of_busy idle reg, rfl, rfl, rfl⟩

/-- R172, R204: on an idle unit a legal command word raises no error, unless it is DECRYPT without a keystream. -/
theorem keepsRecord_exec_wrCmd {w : Word} {s : State} (idle : s.op = .none) (legal : ¬4 ≤ w.toNat)
    (keyed : ¬(w = 2 ∧ s.ksv = false)) : KeepsRecord s (exec (.wrCmd w) s) := by
  refine ⟨_, exec_wrCmd_eq_writeCommand w s, ?_⟩
  obtain rfl | rfl | rfl | rfl | illegal := command_word_cases w
  · simp [State.writeCommand, idle]
  · simp [State.writeCommand, idle]
  · have present : s.ksv = true := by simpa using keyed
    simp [State.writeCommand, idle, present]
  · simp [State.writeCommand, idle]
  · exact absurd illegal legal

/-! ### The registers' descriptors (R81, R84) -/

/-- The descriptors of the five register reads, in the order of the window. -/
def registerReads : List Descriptor := [0x200, 0x204, 0x208, 0x210, 0x214]

/-- The descriptors of the four register writes that a busy unit rejects: CMD, KEY, BLK_H and BLK_L (R234). -/
def guardedWrites : List Descriptor := [0x600, 0x608, 0x610, 0x614]

theorem mem_registerReads {d : Descriptor} :
    d ∈ registerReads ↔ d = 0x200 ∨ d = 0x204 ∨ d = 0x208 ∨ d = 0x210 ∨ d = 0x214 := by
  simp [registerReads]

theorem descWrite_of_mem_registerReads {d : Descriptor} (h : d ∈ registerReads) : descWrite d = false := by
  obtain rfl | rfl | rfl | rfl | rfl := mem_registerReads.mp h <;> rfl

theorem mem_guardedWrites {d : Descriptor} :
    d ∈ guardedWrites ↔ d = 0x600 ∨ d = 0x608 ∨ d = 0x610 ∨ d = 0x614 := by
  simp [guardedWrites]

/-- R53, R84: a well-formed access off the reserved offsets is a register's; of the writes only STATUS's is not guarded. -/
theorem register_descriptor_cases {d : Descriptor} (wellFormed : ¬(d.toNat / 256 % 4 ≠ 2 ∨ d.toNat % 4 ≠ 0))
    (named : ¬(d.toNat % 256 = 0x0C ∨ 0x18 ≤ d.toNat % 256)) :
    d ∈ registerReads ∨ d = 0x604 ∨ d ∈ guardedWrites := by
  rw [mem_registerReads, mem_guardedWrites]
  bv_omega

/-- R80, R185: the access that an instruction is encoded by runs it. -/
theorem hostAccess_of_encode (i : Instr) {t : Transaction} (wf : i.WellFormed) (encoded : encode i = .access t)
    (s : State) : hostAccess t s = exec i s := by
  rw [hostAccess, ← encoded, decodeReadsBackEveryEncoding i wf]

/-- R81: the data word of a read is looked at by nothing (log 13). -/
theorem hostAccess_read_data {d : Descriptor} (read : descWrite d = false) (w : Word) (s : State) :
    hostAccess ⟨d, w⟩ s = hostAccess ⟨d, 0⟩ s := by
  simp only [hostAccess, decode, decodeAccess, txnAccess, read, Bool.false_eq_true, if_false]

/-! ### What the registers' accesses raise (R204) -/

theorem KeepsRecord.of_encode (i : Instr) {t : Transaction} {s : State} (h : KeepsRecord s (exec i s))
    (wf : i.WellFormed) (encoded : encode i = .access t) : KeepsRecord s (hostAccess t s) := by
  rwa [hostAccess_of_encode i wf encoded]

theorem keepsRecord_register_read {d : Descriptor} (h : d ∈ registerReads) (w : Word) (s : State) :
    KeepsRecord s (hostAccess ⟨d, w⟩ s) := by
  rw [hostAccess_read_data (descWrite_of_mem_registerReads h)]
  obtain rfl | rfl | rfl | rfl | rfl := mem_registerReads.mp h
  · exact .of_encode .rdCmd (keepsRecord_finishRead s 0) rfl rfl
  · exact .of_encode .rdStatus (keepsRecord_finishRead s s.statusWord) rfl rfl
  · exact .of_encode .rdKey (keepsRecord_finishRead s 0) rfl rfl
  · exact .of_encode .rdBlkH (keepsRecord_readBlock s s.blkH) rfl rfl
  · exact .of_encode .rdBlkL (keepsRecord_readBlock s s.blkL) rfl rfl

/-- R234: a busy unit rejects every guarded write. -/
theorem hostAccess_guardedWrite_of_busy {d : Descriptor} (h : d ∈ guardedWrites) (w : Word) {s : State}
    (busy : s.op ≠ .none) : hostAccess ⟨d, w⟩ s = .next ((s.recordError .busy).returning 0) := by
  obtain rfl | rfl | rfl | rfl := mem_guardedWrites.mp h
  · exact (hostAccess_of_encode (.wrCmd w) rfl rfl s).trans (exec_wrCmd_of_busy w busy)
  · exact (hostAccess_of_encode (.wrKey w) rfl rfl s).trans (whenIdle_of_busy busy _)
  · exact (hostAccess_of_encode (.wrBlkH w) rfl rfl s).trans (whenIdle_of_busy busy _)
  · exact (hostAccess_of_encode (.wrBlkL w) rfl rfl s).trans (whenIdle_of_busy busy _)

/-- R172, R178, R181, R182: on an idle unit only the command port can still raise an error. -/
theorem keepsRecord_guardedWrite_of_idle {d : Descriptor} (h : d ∈ guardedWrites) {w : Word} {s : State}
    (idle : s.op = .none) (legal : ¬(d = 0x600 ∧ 4 ≤ w.toNat)) (keyed : ¬(d = 0x600 ∧ w = 2 ∧ s.ksv = false)) :
    KeepsRecord s (hostAccess ⟨d, w⟩ s) := by
  obtain rfl | rfl | rfl | rfl := mem_guardedWrites.mp h
  · have port := keepsRecord_exec_wrCmd idle (fun large => legal ⟨rfl, large⟩) (fun noKey => keyed ⟨rfl, noKey⟩)
    exact .of_encode (.wrCmd w) port rfl rfl
  · exact .of_encode (.wrKey w) ⟨_, whenIdle_of_idle idle _, rfl, rfl, rfl⟩ rfl rfl
  · exact .of_encode (.wrBlkH w) ⟨_, whenIdle_of_idle idle _, rfl, rfl, rfl⟩ rfl rfl
  · exact .of_encode (.wrBlkL w) ⟨_, whenIdle_of_idle idle _, rfl, rfl, rfl⟩ rfl rfl

theorem hostAccess_illegalCmd_of_idle {w : Word} (illegal : 4 ≤ w.toNat) {s : State} (idle : s.op = .none) :
    hostAccess ⟨0x600, w⟩ s = .next ((s.recordError .badCmd).returning 0) := by
  refine (hostAccess_of_encode (.wrCmd w) rfl rfl s).trans ?_
  rw [exec_wrCmd, decodeCommand_of_le illegal]
  exact exec_illegalCmd_of_idle w idle

/-- R157: without a keystream DECRYPT is rejected. -/
theorem hostAccess_decrypt_of_idle {s : State} (idle : s.op = .none) (unkeyed : s.ksv = false) :
    hostAccess ⟨0x600, 2⟩ s = .next ((s.recordError .noKey).returning 0) := by
  refine (hostAccess_of_encode (.wrCmd 2) rfl rfl s).trans ?_
  rw [exec_wrCmd_eq_writeCommand]
  simp [State.writeCommand, idle, unkeyed]

/-- Settles O26: the errors one by one in their order, then the registers' accesses that none of them applies to. -/
theorem oneErrorIsRaisedInPriorityOrder : Obligations.OneErrorIsRaisedInPriorityOrder := by
  rintro ⟨d, w⟩ s
  have idle_of_passed (passed : ¬(s.op ≠ .none ∧ d ∈ guardedWrites)) (h : d ∈ guardedWrites) : s.op = .none := by
    by_contra pending
    exact passed ⟨pending, h⟩
  dsimp only
  split_ifs with illFormed reserved busy badCmd noKey
  · exact illFormedAccessesRaiseBadAcc.2 ⟨d, w⟩ s illFormed
  · obtain ⟨size, aligned⟩ : d.toNat / 256 % 4 = 2 ∧ d.toNat % 4 = 0 := by omega
    exact reservedOffsetsRaiseBadAddr.2 ⟨d, w⟩ s size aligned reserved
  · obtain ⟨pending, write⟩ := busy
    exact hostAccess_guardedWrite_of_busy write w pending
  · obtain ⟨rfl, illegal⟩ := badCmd
    exact hostAccess_illegalCmd_of_idle illegal (idle_of_passed busy (by decide))
  · obtain ⟨rfl, rfl, unkeyed⟩ := noKey
    exact hostAccess_decrypt_of_idle (idle_of_passed busy (by decide)) unkeyed
  · obtain read | rfl | write := register_descriptor_cases illFormed reserved
    · obtain ⟨u, goesOn, kept⟩ := keepsRecord_register_read read w s
      exact ⟨u, goesOn, fun _ => kept⟩
    · obtain ⟨u, goesOn⟩ := exec_goesOn (decode (.access ⟨0x604, w⟩)) s
      exact ⟨u, goesOn, fun notStatus => absurd rfl notStatus⟩
    · obtain ⟨u, goesOn, kept⟩ := keepsRecord_guardedWrite_of_idle write (idle_of_passed busy write) badCmd noKey
      exact ⟨u, goesOn, fun _ => kept⟩

end Sys2Proof.Machine
end

section
/-! PROOFS. No host access looks at KEY or KS (10_state.md R22, R33; 60_exceptions.md R211). -/

namespace Sys2Proof.Machine

/-- The state with another KEY and another KS. -/
def State.withSecrets (s : State) (key : Word) (ks : Keystream) : State := { s with key := key, ks := ks }

@[simp] theorem State.withSecrets_ksv (s : State) (key : Word) (ks : Keystream) : (s.withSecrets key ks).ksv = s.ksv := rfl

/-- Wherever `o` goes on, `o'` goes on to the same state but for KEY and a KS of `ks`. -/
def SameButSecrets (ks : Keystream) (o o' : Result) : Prop :=
  ∀ t, o = .next t → ∃ key, o' = .next (t.withSecrets key ks)

theorem SameButSecrets.next (ks : Keystream) (t : State) (key : Word) :
    SameButSecrets ks (.next t) (.next (t.withSecrets key ks)) := by
  rintro _ ⟨⟩
  exact ⟨key, rfl⟩

section
variable (s : State) (key : Word) (ks : Keystream)

theorem finishWrite_sameButSecrets : SameButSecrets ks (finishWrite s) (finishWrite (s.withSecrets key ks)) :=
  .next ks (s.returning 0) key

theorem finishRead_sameButSecrets (v : Word) :
    SameButSecrets ks (finishRead s v) (finishRead (s.withSecrets key ks) v) :=
  .next ks (s.returning v) key

theorem raiseError_sameButSecrets (code : ErrCode) :
    SameButSecrets ks (raiseError s code) (raiseError (s.withSecrets key ks) code) :=
  .next ks ((s.recordError code).returning 0) key

theorem whenIdle_sameButSecrets {k k' : Result} (h : SameButSecrets ks k k') :
    SameButSecrets ks (whenIdle s k) (whenIdle (s.withSecrets key ks) k') := by
  by_cases idle : s.op = .none
  · rwa [whenIdle_of_idle idle, whenIdle_of_idle (s := s.withSecrets key ks) idle]
  · rw [whenIdle_of_busy idle, whenIdle_of_busy (s := s.withSecrets key ks) idle]
    exact raiseError_sameButSecrets s key ks .busy

theorem offerDecrypt_sameButSecrets : SameButSecrets ks (offerDecrypt s) (offerDecrypt (s.withSecrets key ks)) := by
  unfold offerDecrypt
  rw [State.withSecrets_ksv]
  split
  · exact finishWrite_sameButSecrets s.acceptDecrypt key ks
  · exact raiseError_sameButSecrets s key ks .noKey

/-- While busy the value read is a free one, which depends on the count of draws alone (log 5). -/
theorem readBlock_sameButSecrets (reg : Word) :
    SameButSecrets ks (readBlock s reg) (readBlock (s.withSecrets key ks) reg) := by
  by_cases idle : s.op = .none
  · rw [readBlock_of_idle idle, readBlock_of_idle (s := s.withSecrets key ks) idle]
    exact finishRead_sameButSecrets s key ks reg
  · rw [readBlock_of_busy idle, readBlock_of_busy (s := s.withSecrets key ks) idle]
    exact finishRead_sameButSecrets { s with draws := s.draws + 1 } key ks (Config.drawBits 32 s.draws)

theorem execWrStatus_sameButSecrets (w : Word) :
    SameButSecrets ks (execWrStatus w s) (execWrStatus w (s.withSecrets key ks)) := by
  unfold execWrStatus
  split
  · exact finishWrite_sameButSecrets s.clearErrors key ks
  · exact finishWrite_sameButSecrets s key ks

/-- R178: WR_KEY leaves its own word as the key, whatever the key was; every other access leaves the key it met. -/
theorem exec_sameButSecrets_of_ne_wrCmd {i : Instr} (hi : ∀ w, i ≠ .wrCmd w) :
    SameButSecrets ks (exec i s) (exec i (s.withSecrets key ks)) := by
  cases i with
  | wrCmd w => exact absurd rfl (hi w)
  | nop => exact whenIdle_sameButSecrets s key ks (finishWrite_sameButSecrets s key ks)
  | keygen => exact whenIdle_sameButSecrets s key ks (finishWrite_sameButSecrets s.acceptKeygen key ks)
  | decrypt => exact whenIdle_sameButSecrets s key ks (offerDecrypt_sameButSecrets s key ks)
  | zeroize => exact whenIdle_sameButSecrets s key ks (finishWrite_sameButSecrets s.acceptZeroize key ks)
  | illegalCmd => exact whenIdle_sameButSecrets s key ks (raiseError_sameButSecrets s key ks .badCmd)
  | rdCmd | rdKey => exact finishRead_sameButSecrets s key ks 0
  | rdStatus => exact finishRead_sameButSecrets s key ks s.statusWord
  | wrStatus w => exact execWrStatus_sameButSecrets s key ks w
  | wrKey w => exact whenIdle_sameButSecrets s key ks (finishWrite_sameButSecrets { s with key := w } w ks)
  | rdBlkH => exact readBlock_sameButSecrets s key ks s.blkH
  | rdBlkL => exact readBlock_sameButSecrets s key ks s.blkL
  | wrBlkH w => exact whenIdle_sameButSecrets s key ks (finishWrite_sameButSecrets { s with blkH := w } key ks)
  | wrBlkL w => exact whenIdle_sameButSecrets s key ks (finishWrite_sameButSecrets { s with blkL := w } key ks)
  | rsvAccess => exact raiseError_sameButSecrets s key ks .badAddr
  | badAccess => exact raiseError_sameButSecrets s key ks .badAcc

/-- R211: a write to CMD hides the secrets because the command its word stands for does. -/
theorem exec_sameButSecrets (i : Instr) : SameButSecrets ks (exec i s) (exec i (s.withSecrets key ks)) := by
  cases i with
  | wrCmd w =>
    rw [exec_wrCmd, exec_wrCmd]
    exact exec_sameButSecrets_of_ne_wrCmd s key ks (decodeCommand_ne_wrCmd w)
  | _ => exact exec_sameButSecrets_of_ne_wrCmd s key ks nofun

end

/-- Settles O30: an access from the state with other secrets ends in the same state but for the secrets. -/
theorem noAccessRevealsKeyOrKeystream : Obligations.NoAccessRevealsKeyOrKeystream :=
  fun i s t key ks h => exec_sameButSecrets s key ks i t h

end Sys2Proof.Machine
end

section
/-! PROOFS. Units of a platform share no state that a step can change (60_exceptions.md R214). -/

namespace Sys2Proof.Machine

/-- Settles O58: a number with no unit moves nothing, and a unit's step replaces that unit in the list. -/
theorem unitsDoNotDisturbEachOther : Obligations.UnitsDoNotDisturbEachOther := by
  intro k units units' h
  obtain ⟨noUnit, rfl⟩ | ⟨s, t, unit, stepped, rfl⟩ := platformStep_eq_next.mp h
  · refine ⟨rfl, fun _ _ => rfl, fun s unit => ?_⟩
    rw [noUnit] at unit
    cases unit
  · refine ⟨List.length_set, fun j other => List.getElem?_set_ne other.symm, fun s' unit' => ?_⟩
    obtain rfl : s = s' := Option.some.inj (unit.symm.trans unit')
    have inRange : k < units.length := (List.getElem?_eq_some_iff.mp unit).1
    exact ⟨t, stepped, List.getElem?_set_self inRange⟩

end Sys2Proof.Machine
end

section
/-! PROOFS. Reset, and what a pending operation means for the host and for the run (70_reset_and_hazards.md): a reset step leaves
nothing of what was there (R230, R231), a busy unit rejects writes (R234), a latency keeps its bound and counts down (R238), and
a run gets through its schedule (R239, R240). -/

namespace Sys2Proof.Machine

/-! ### Reset (R230, R231) -/

/-- R230, R231: what a reset clears or draws anew does not show afterwards. -/
theorem State.resetStep_of_overwritten (s : State) (key hi lo : Word) (ks : Keystream) (op : Op) :
    ({ s with key := key, blkH := hi, blkL := lo, ks := ks, op := op } : State).resetStep = s.resetStep := rfl

/-- R41, R230: STATUS is made of fields that a reset clears. -/
theorem State.statusWord_resetStep (s : State) : s.resetStep.statusWord = 0 := by
  simp [State.statusWord, State.busy, ErrCode.bits, flagWord]

theorem step_reset {s : State} {rest : List Event} (next : s.schedule = .reset :: rest) :
    step s = .next { s with schedule := rest }.resetStep :=
  takeStep_cons next

/-- Settles O35: a reset step overwrites every register it finds, and draws KS from the count of draws alone. -/
theorem resetStepClearsTheUnit : Obligations.ResetStepClearsTheUnit := by
  intro s rest next
  refine ⟨⟨_, step_reset next, rfl, rfl, rfl, rfl, rfl, rfl, rfl, rfl, State.statusWord_resetStep _, rfl, rfl⟩,
    fun key hi lo ks op => ?_⟩
  rw [step_reset next, step_reset (s := { s with key := key, blkH := hi, blkL := lo, ks := ks, op := op }) next]
  exact congrArg _ (State.resetStep_of_overwritten { s with schedule := rest } key hi lo ks op)

/-! ### Writes to a busy unit (R234) -/

/-- Settles O27: WR_CMD has a busy check of its own, the other writes and the commands share one. -/
theorem pendingOperationRejectsWrites : Obligations.PendingOperationRejectsWrites := by
  intro s w busy
  have checked (k : Result) : whenIdle s k = .next ((s.recordError .busy).returning 0) := whenIdle_of_busy busy k
  simp only [List.forall_mem_cons]
  exact ⟨checked _, checked _, checked _, checked _, checked _, exec_wrCmd_of_busy w busy, checked _, checked _,
    checked _, nofun⟩

/-! ### The end of a schedule (R239, R240) -/

section
variable {s t : State}

theorem completeOp_schedule (h : completeOp s = .next t) : t.schedule = s.schedule := by
  obtain ⟨-, rfl⟩ | ⟨-, rfl⟩ | ⟨-, b, -, rfl⟩ | ⟨-, rfl⟩ := completeOp_eq_next.mp h <;> rfl

/-- Every step uses up the first event, and adds none (log 1). -/
theorem step_schedule (h : step s = .next t) : t.schedule = s.schedule.tail := by
  obtain ⟨-, completed⟩ | ⟨a, -, accessed⟩ | ⟨-, rfl⟩ := step_cases h
  · exact completeOp_schedule completed
  · obtain ⟨-, -, -, -, -, kept⟩ := (hostAccess_effect accessed).engine_kept
    exact kept
  · rfl

/-- R239: with no event left the step is the completion, after which nothing is left to do. -/
theorem step_atEnd (last : s.schedule = []) (h : step s = .next t) : t.AtEnd := by
  rw [step, takeStep_nil last] at h
  obtain ⟨idle, -⟩ := completeOp_record_kept h
  exact ⟨(completeOp_schedule h).trans last, idle⟩

theorem run_schedule_reaches_end {events : List Event} (hs : s.schedule = events) (sound : s.Sound) :
    ∃ t, Host.Core.run Sys2Proof.core (events.length + 1) s = .next t ∧ t.AtEnd := by
  induction events generalizing s with
  | nil =>
    obtain ⟨t, stepped⟩ := step_goesOn sound
    exact ⟨t, (run_succ_of_next 0 stepped).trans (run_zero t), step_atEnd hs stepped⟩
  | cons e rest ih =>
    obtain ⟨u, stepped⟩ := step_goesOn sound
    have shorter : u.schedule = rest := by rw [step_schedule stepped, hs, List.tail_cons]
    obtain ⟨t, ran, ended⟩ := ih shorter (stepKeepsTheStateSound s u sound stepped)
    exact ⟨t, (run_succ_of_next _ stepped).trans ran, ended⟩

end

/-- Settles O57: each step shortens the schedule by one event, and the step after the last one completes what is pending. -/
theorem everyScheduleReachesItsEnd : Obligations.EveryScheduleReachesItsEnd :=
  fun _ sound => run_schedule_reaches_end rfl sound

/-! ### Latencies (R173, R238) -/

theorem latencyBound_pos (op : Op) : 0 < latencyBound op := by
  cases op <;> exact Nat.succ_pos _

theorem latency_bounds (op : Op) (k : Nat) : 1 ≤ latency op k ∧ latency op k ≤ latencyBound op := by
  have choice := Nat.mod_lt (Config.latencyChoice k) (latencyBound_pos op)
  unfold latency
  omega

section
variable {u : TimedUnit}

/-- Only acceptance starts a countdown (R173). -/
theorem TimedUnit.afterAccess_of_busy (busy : u.core.op ≠ .none) (s : State) :
    u.afterAccess s = { u with core := s } :=
  if_neg fun accepted => busy accepted.1

theorem timedAccess_of_busy (busy : u.core.op ≠ .none) (a : Option Transaction) :
    ∃ u', timedAccess a u = .next u' ∧ u'.core.op = u.core.op ∧ u'.left = u.left := by
  cases a with
  | none => exact ⟨u, rfl, rfl, rfl⟩
  | some t =>
    obtain ⟨s, accessed⟩ := exec_goesOn (decode (.access t)) u.core
    obtain ⟨kept, -⟩ := pendingOperationKeepsItsOperands _ _ _ busy accessed
    refine ⟨u.afterAccess s, timedAccess_eq_next.mpr (.inr ⟨t, s, rfl, accessed, rfl⟩), ?_⟩
    rw [TimedUnit.afterAccess_of_busy busy]
    exact ⟨kept, rfl⟩

theorem timedCompletion_of_left (waiting : u.left ≠ 0) : timedCompletion u = .next u :=
  timedCompletion_eq_next.mpr (.inl ⟨fun due => waiting due.2, rfl⟩)

/-- The order of a cycle's two halves does not matter while the operation has cycles left. -/
theorem clockCycle_counts_down {c : ClockCycle} (running : c.reset = false) (busy : u.core.op ≠ .none)
    (waiting : 2 ≤ u.left) :
    ∃ u', clockCycle c u = .next u' ∧ u'.core.op = u.core.op ∧ u'.left = u.left - 1 := by
  obtain ⟨u', accessed, kept, left⟩ := timedAccess_of_busy (u := { u with left := u.left - 1 }) busy c.access
  refine ⟨u', ?_, kept, left⟩
  simp only [clockCycle, running, Bool.false_eq_true, if_false]
  split
  · rw [timedCompletion_of_left (u := { u with left := u.left - 1 }) (Nat.sub_ne_zero_of_lt waiting), andThen_next,
      accessed]
  · rw [accessed, andThen_next, timedCompletion_of_left (by rw [left]; exact Nat.sub_ne_zero_of_lt waiting)]

/-- Without an access a cycle is the completion alone, whichever half comes first. -/
theorem clockCycle_without_access {u' : TimedUnit} {first : Bool} (h : clockCycle ⟨false, none, first⟩ u = .next u') :
    timedCompletion { u with left := u.left - 1 } = .next u' := by
  cases first with
  | false => exact h
  | true =>
    obtain ⟨m, completed, accessed⟩ := andThen_eq_next.mp h
    cases accessed
    exact completed

/-- R173: with no cycles left the pending operation completes. -/
theorem timedCompletion_op {u' : TimedUnit} (due : u.left = 0) (h : timedCompletion u = .next u') :
    u'.core.op = .none := by
  obtain ⟨notDue, rfl⟩ | ⟨-, s, completed, rfl⟩ := timedCompletion_eq_next.mp h
  · exact not_not.mp fun busy => notDue ⟨busy, due⟩
  · obtain ⟨idle, -⟩ := completeOp_record_kept completed
    exact idle

end

/-- Settles O60: the bound of a latency, the countdown and the completion at its end. -/
theorem latencyCountsDownToCompletion : Obligations.LatencyCountsDownToCompletion := by
  refine ⟨latency_bounds, fun c u => clockCycle_counts_down, fun u u' first _ last cycle => ?_⟩
  exact timedCompletion_op (Nat.sub_eq_zero_of_le last.le) (clockCycle_without_access cycle)

end Sys2Proof.Machine
end
